-- ==== Sys2Proof/Word.lean ====
section
/-! DEFINITION. The hardware's word types (00_scope.md R6, R11): bytes, 16-bit words, register indices. -/

namespace Sys2Proof

/-- An 8-bit value: a general register, a memory byte, a timer (R6 `XLEN`). -/
abbrev Byte := BitVec 8

/-- A 16-bit value: `pc`, `I`, a stack entry, an instruction word (R6 `PC_BITS`, `I_BITS`, `STACK_BITS`). -/
abbrev Word := BitVec 16

/-- The index of a general register, 0 to 15: the fields `x` and `y` of an instruction (R20, R72). -/
abbrev Reg := Fin 16

end Sys2Proof
end

