-- ==== Sys2Proof/Syntax.lean ====
section
/-! DEFINITION. The syntax: one constructor for each of the 34 rows of spec/opcode_table.json (30_encoding.md R74). -/

namespace Sys2Proof

/-- An instruction, its operands already taken apart (30_encoding.md R72, R75).
`nn` is the immediate byte, `nnn` the 12-bit address, `n` the sprite height, a count that `WellFormed` bounds.
The shifts carry `y` although they ignore it (R79), so that no bit of the word is lost. -/
inductive Instr where
  /-- 00E0 `CLS` -/
  | cls
  /-- 00EE `RET` -/
  | ret
  /-- 1NNN `JP nnn` -/
  | jp (nnn : BitVec 12)
  /-- 2NNN `CALL nnn` -/
  | call (nnn : BitVec 12)
  /-- 3XNN `SE Vx, nn` -/
  | seImm (x : Reg) (nn : Byte)
  /-- 4XNN `SNE Vx, nn` -/
  | sneImm (x : Reg) (nn : Byte)
  /-- 5XY0 `SE Vx, Vy` -/
  | seReg (x y : Reg)
  /-- 6XNN `LD Vx, nn` -/
  | ldImm (x : Reg) (nn : Byte)
  /-- 7XNN `ADD Vx, nn` -/
  | addImm (x : Reg) (nn : Byte)
  /-- 8XY0 `LD Vx, Vy` -/
  | ldReg (x y : Reg)
  /-- 8XY1 `OR Vx, Vy` -/
  | orReg (x y : Reg)
  /-- 8XY2 `AND Vx, Vy` -/
  | andReg (x y : Reg)
  /-- 8XY3 `XOR Vx, Vy` -/
  | xorReg (x y : Reg)
  /-- 8XY4 `ADD Vx, Vy` -/
  | addReg (x y : Reg)
  /-- 8XY5 `SUB Vx, Vy` -/
  | subReg (x y : Reg)
  /-- 8XY6 `SHR Vx`, `y` ignored -/
  | shr (x y : Reg)
  /-- 8XY7 `SUBN Vx, Vy` -/
  | subnReg (x y : Reg)
  /-- 8XYE `SHL Vx`, `y` ignored -/
  | shl (x y : Reg)
  /-- 9XY0 `SNE Vx, Vy` -/
  | sneReg (x y : Reg)
  /-- ANNN `LD I, nnn` -/
  | ldIndex (nnn : BitVec 12)
  /-- BNNN `JP V0, nnn` -/
  | jpV0 (nnn : BitVec 12)
  /-- CXNN `RND Vx, nn` -/
  | rnd (x : Reg) (nn : Byte)
  /-- DXYN `DRW Vx, Vy, n` -/
  | drw (x y : Reg) (n : Nat)
  /-- EX9E `SKP Vx` -/
  | skp (x : Reg)
  /-- EXA1 `SKNP Vx` -/
  | sknp (x : Reg)
  /-- FX07 `LD Vx, DT` -/
  | ldVxDT (x : Reg)
  /-- FX0A `LD Vx, K` -/
  | ldVxK (x : Reg)
  /-- FX15 `LD DT, Vx` -/
  | ldDTVx (x : Reg)
  /-- FX18 `LD ST, Vx` -/
  | ldSTVx (x : Reg)
  /-- FX1E `ADD I, Vx` -/
  | addIndex (x : Reg)
  /-- FX29 `LD F, Vx` -/
  | ldFont (x : Reg)
  /-- FX33 `LD B, Vx` -/
  | storeBcd (x : Reg)
  /-- FX55 `LD [I], Vx` -/
  | dumpRegs (x : Reg)
  /-- FX65 `LD Vx, [I]` -/
  | loadRegs (x : Reg)
  deriving DecidableEq, Repr

end Sys2Proof
end

