-- ==== Sys2Proof/WellFormed.lean ====
section
/-! DEFINITION. Which instruction terms have an encoding. Register indices, bytes and addresses are bounded by their types;
the one operand that is a plain count is the sprite height. -/

namespace Sys2Proof

/-- Every operand fits its field (30_encoding.md R72): the height `n` of DXYN is 0 to 15 (44_display.md R151); every other
operand is bounded by its type. -/
def wellFormed (i : Instr) : Bool :=
  match i with
  | .drw _ _ n => decide (n < 16)
  | .cls | .ret | .jp _ | .call _ | .seImm _ _ | .sneImm _ _ | .seReg _ _ | .ldImm _ _ | .addImm _ _
  | .ldReg _ _ | .orReg _ _ | .andReg _ _ | .xorReg _ _ | .addReg _ _ | .subReg _ _ | .shr _ _ | .subnReg _ _
  | .shl _ _ | .sneReg _ _ | .ldIndex _ | .jpV0 _ | .rnd _ _ | .skp _ | .sknp _ | .ldVxDT _ | .ldVxK _
  | .ldDTVx _ | .ldSTVx _ | .addIndex _ | .ldFont _ | .storeBcd _ | .dumpRegs _ | .loadRegs _ => true

/-- The check as a proposition. -/
abbrev WellFormed (i : Instr) : Prop := wellFormed i = true

end Sys2Proof
end

