-- ==== Sys2Proof/Decode.lean ====
section
/-! DEFINITION. Decoding and encoding (30_encoding.md). The bit positions and the map are those of R72 and R74, which the spec marks as
general knowledge (G1): UNVERIFIED, log 1. Decoding is total and strict (R78, D9, D10, log 8): every word gives an instruction or is
rejected by name. -/

namespace Sys2Proof

/-- Why bytes give no instruction. -/
inductive DecodeError where
  /-- The word matches none of the 34 patterns (R77). -/
  | unknownOpcode (op : Word)
  /-- Fewer than the two bytes every instruction has (R71). -/
  | truncated
  deriving DecidableEq, Repr

/-! ## Fields of the instruction word (R72) -/

/-- `g` = op[15:12], the primary opcode group. -/
def fieldG (op : Word) : BitVec 4 := op.extractLsb' 12 4

/-- `x` = op[11:8], the first register index. -/
def fieldX (op : Word) : Reg := (op.extractLsb' 8 4).toFin

/-- `y` = op[7:4], the second register index. -/
def fieldY (op : Word) : Reg := (op.extractLsb' 4 4).toFin

/-- `n` = op[3:0], sub-opcode or sprite height. -/
def fieldN (op : Word) : BitVec 4 := op.extractLsb' 0 4

/-- `nn` = op[7:0], immediate byte or sub-opcode. -/
def fieldNN (op : Word) : Byte := op.extractLsb' 0 8

/-- `nnn` = op[11:0], address operand. -/
def fieldNNN (op : Word) : BitVec 12 := op.extractLsb' 0 12

/-! ## Decoding a word (R78) -/

/-- Group 0: only 00E0 and 00EE are instructions; a machine-code call 0NNN is unknown (D10). -/
def decodeGroup0 (op : Word) : Except DecodeError Instr :=
  if op = 0x00E0#16 then .ok .cls
  else if op = 0x00EE#16 then .ok .ret
  else .error (.unknownOpcode op)

/-- Group 8: the low nibble selects the operation. -/
def decodeGroup8 (op : Word) : Except DecodeError Instr :=
  let x := fieldX op
  let y := fieldY op
  if fieldN op = 0x0#4 then .ok (.ldReg x y)
  else if fieldN op = 0x1#4 then .ok (.orReg x y)
  else if fieldN op = 0x2#4 then .ok (.andReg x y)
  else if fieldN op = 0x3#4 then .ok (.xorReg x y)
  else if fieldN op = 0x4#4 then .ok (.addReg x y)
  else if fieldN op = 0x5#4 then .ok (.subReg x y)
  else if fieldN op = 0x6#4 then .ok (.shr x y)
  else if fieldN op = 0x7#4 then .ok (.subnReg x y)
  else if fieldN op = 0xE#4 then .ok (.shl x y)
  else .error (.unknownOpcode op)

/-- Group E: the low byte selects the key skip. -/
def decodeGroupE (op : Word) : Except DecodeError Instr :=
  if fieldNN op = 0x9E#8 then .ok (.skp (fieldX op))
  else if fieldNN op = 0xA1#8 then .ok (.sknp (fieldX op))
  else .error (.unknownOpcode op)

/-- Group F: the low byte selects the operation. -/
def decodeGroupF (op : Word) : Except DecodeError Instr :=
  let x := fieldX op
  if fieldNN op = 0x07#8 then .ok (.ldVxDT x)
  else if fieldNN op = 0x0A#8 then .ok (.ldVxK x)
  else if fieldNN op = 0x15#8 then .ok (.ldDTVx x)
  else if fieldNN op = 0x18#8 then .ok (.ldSTVx x)
  else if fieldNN op = 0x1E#8 then .ok (.addIndex x)
  else if fieldNN op = 0x29#8 then .ok (.ldFont x)
  else if fieldNN op = 0x33#8 then .ok (.storeBcd x)
  else if fieldNN op = 0x55#8 then .ok (.dumpRegs x)
  else if fieldNN op = 0x65#8 then .ok (.loadRegs x)
  else .error (.unknownOpcode op)

/-- `Decode(op)` of R78. It reads only the word: no mode, no state. Groups 5 and 9 demand a low nibble of 0 (D9, log 8). -/
def decodeWord (op : Word) : Except DecodeError Instr :=
  if fieldG op = 0x0#4 then decodeGroup0 op
  else if fieldG op = 0x1#4 then .ok (.jp (fieldNNN op))
  else if fieldG op = 0x2#4 then .ok (.call (fieldNNN op))
  else if fieldG op = 0x3#4 then .ok (.seImm (fieldX op) (fieldNN op))
  else if fieldG op = 0x4#4 then .ok (.sneImm (fieldX op) (fieldNN op))
  else if fieldG op = 0x5#4 then
    if fieldN op = 0x0#4 then .ok (.seReg (fieldX op) (fieldY op)) else .error (.unknownOpcode op)
  else if fieldG op = 0x6#4 then .ok (.ldImm (fieldX op) (fieldNN op))
  else if fieldG op = 0x7#4 then .ok (.addImm (fieldX op) (fieldNN op))
  else if fieldG op = 0x8#4 then decodeGroup8 op
  else if fieldG op = 0x9#4 then
    if fieldN op = 0x0#4 then .ok (.sneReg (fieldX op) (fieldY op)) else .error (.unknownOpcode op)
  else if fieldG op = 0xA#4 then .ok (.ldIndex (fieldNNN op))
  else if fieldG op = 0xB#4 then .ok (.jpV0 (fieldNNN op))
  else if fieldG op = 0xC#4 then .ok (.rnd (fieldX op) (fieldNN op))
  else if fieldG op = 0xD#4 then .ok (.drw (fieldX op) (fieldY op) (fieldN op).toNat)
  else if fieldG op = 0xE#4 then decodeGroupE op
  else decodeGroupF op

/-! ## Decoding bytes (R53, R71) -/

/-- `op <- hi ∥ lo`: the byte at the lower address is the high one (R53). -/
def wordOfBytes (hi lo : Byte) : Word := hi ++ lo

/-- The two bytes of a word, the first at the lower address (R53). -/
def bytesOfWord (op : Word) : List Byte := [op.extractLsb' 8 8, op.extractLsb' 0 8]

/-- One instruction from the front of a list of bytes, with the rest of the list. -/
def decodeBytes : List Byte → Except DecodeError (Instr × List Byte)
  | hi :: lo :: rest =>
    match decodeWord (wordOfBytes hi lo) with
    | .ok i => .ok (i, rest)
    | .error e => .error e
  | _ => .error .truncated

/-! ## Encoding: the formats (R75) and the map (R74) -/

/-- A register index as its 4-bit field. -/
def regField (x : Reg) : BitVec 4 := BitVec.ofFin x

/-- Format NNN: group and address. -/
def formatNNN (g : BitVec 4) (nnn : BitVec 12) : Word := g ++ nnn

/-- Formats XNN and X: group, register, byte. -/
def formatXNN (g : BitVec 4) (x : Reg) (nn : Byte) : Word := g ++ (regField x ++ nn)

/-- Format XYN: group, two registers, nibble. -/
def formatXYN (g : BitVec 4) (x y : Reg) (n : BitVec 4) : Word := g ++ (regField x ++ (regField y ++ n))

/-- The word of an instruction, from the patterns of R74. -/
def encode (i : Instr) : Word :=
  match i with
  | .cls => 0x00E0#16
  | .ret => 0x00EE#16
  | .jp nnn => formatNNN 0x1 nnn
  | .call nnn => formatNNN 0x2 nnn
  | .seImm x nn => formatXNN 0x3 x nn
  | .sneImm x nn => formatXNN 0x4 x nn
  | .seReg x y => formatXYN 0x5 x y 0x0
  | .ldImm x nn => formatXNN 0x6 x nn
  | .addImm x nn => formatXNN 0x7 x nn
  | .ldReg x y => formatXYN 0x8 x y 0x0
  | .orReg x y => formatXYN 0x8 x y 0x1
  | .andReg x y => formatXYN 0x8 x y 0x2
  | .xorReg x y => formatXYN 0x8 x y 0x3
  | .addReg x y => formatXYN 0x8 x y 0x4
  | .subReg x y => formatXYN 0x8 x y 0x5
  | .shr x y => formatXYN 0x8 x y 0x6
  | .subnReg x y => formatXYN 0x8 x y 0x7
  | .shl x y => formatXYN 0x8 x y 0xE
  | .sneReg x y => formatXYN 0x9 x y 0x0
  | .ldIndex nnn => formatNNN 0xA nnn
  | .jpV0 nnn => formatNNN 0xB nnn
  | .rnd x nn => formatXNN 0xC x nn
  | .drw x y n => formatXYN 0xD x y (BitVec.ofNat 4 n)
  | .skp x => formatXNN 0xE x 0x9E
  | .sknp x => formatXNN 0xE x 0xA1
  | .ldVxDT x => formatXNN 0xF x 0x07
  | .ldVxK x => formatXNN 0xF x 0x0A
  | .ldDTVx x => formatXNN 0xF x 0x15
  | .ldSTVx x => formatXNN 0xF x 0x18
  | .addIndex x => formatXNN 0xF x 0x1E
  | .ldFont x => formatXNN 0xF x 0x29
  | .storeBcd x => formatXNN 0xF x 0x33
  | .dumpRegs x => formatXNN 0xF x 0x55
  | .loadRegs x => formatXNN 0xF x 0x65

/-- The bytes of an instruction in memory order. -/
def encodeBytes (i : Instr) : List Byte := bytesOfWord (encode i)

/-! ## The opcode map as a table (R74) -/

/-- One row of R74: a word `op` selects the row when `op &&& mask = pattern`. -/
structure OpcodeRow where
  mask : Word
  pattern : Word
  deriving DecidableEq, Repr

/-- Does the word select the row? -/
def OpcodeRow.selects (r : OpcodeRow) (op : Word) : Bool := op &&& r.mask == r.pattern

/-- The row of R74 an instruction belongs to. -/
def rowOf (i : Instr) : OpcodeRow :=
  match i with
  | .cls => ⟨0xFFFF, 0x00E0⟩
  | .ret => ⟨0xFFFF, 0x00EE⟩
  | .jp _ => ⟨0xF000, 0x1000⟩
  | .call _ => ⟨0xF000, 0x2000⟩
  | .seImm _ _ => ⟨0xF000, 0x3000⟩
  | .sneImm _ _ => ⟨0xF000, 0x4000⟩
  | .seReg _ _ => ⟨0xF00F, 0x5000⟩
  | .ldImm _ _ => ⟨0xF000, 0x6000⟩
  | .addImm _ _ => ⟨0xF000, 0x7000⟩
  | .ldReg _ _ => ⟨0xF00F, 0x8000⟩
  | .orReg _ _ => ⟨0xF00F, 0x8001⟩
  | .andReg _ _ => ⟨0xF00F, 0x8002⟩
  | .xorReg _ _ => ⟨0xF00F, 0x8003⟩
  | .addReg _ _ => ⟨0xF00F, 0x8004⟩
  | .subReg _ _ => ⟨0xF00F, 0x8005⟩
  | .shr _ _ => ⟨0xF00F, 0x8006⟩
  | .subnReg _ _ => ⟨0xF00F, 0x8007⟩
  | .shl _ _ => ⟨0xF00F, 0x800E⟩
  | .sneReg _ _ => ⟨0xF00F, 0x9000⟩
  | .ldIndex _ => ⟨0xF000, 0xA000⟩
  | .jpV0 _ => ⟨0xF000, 0xB000⟩
  | .rnd _ _ => ⟨0xF000, 0xC000⟩
  | .drw _ _ _ => ⟨0xF000, 0xD000⟩
  | .skp _ => ⟨0xF0FF, 0xE09E⟩
  | .sknp _ => ⟨0xF0FF, 0xE0A1⟩
  | .ldVxDT _ => ⟨0xF0FF, 0xF007⟩
  | .ldVxK _ => ⟨0xF0FF, 0xF00A⟩
  | .ldDTVx _ => ⟨0xF0FF, 0xF015⟩
  | .ldSTVx _ => ⟨0xF0FF, 0xF018⟩
  | .addIndex _ => ⟨0xF0FF, 0xF01E⟩
  | .ldFont _ => ⟨0xF0FF, 0xF029⟩
  | .storeBcd _ => ⟨0xF0FF, 0xF033⟩
  | .dumpRegs _ => ⟨0xF0FF, 0xF055⟩
  | .loadRegs _ => ⟨0xF0FF, 0xF065⟩

/-- The 34 rows of R74 in its order. -/
def opcodeTable : List OpcodeRow :=
  [⟨0xFFFF, 0x00E0⟩, ⟨0xFFFF, 0x00EE⟩, ⟨0xF000, 0x1000⟩, ⟨0xF000, 0x2000⟩, ⟨0xF000, 0x3000⟩, ⟨0xF000, 0x4000⟩,
    ⟨0xF00F, 0x5000⟩, ⟨0xF000, 0x6000⟩, ⟨0xF000, 0x7000⟩]
  ++ [⟨0xF00F, 0x8000⟩, ⟨0xF00F, 0x8001⟩, ⟨0xF00F, 0x8002⟩, ⟨0xF00F, 0x8003⟩, ⟨0xF00F, 0x8004⟩, ⟨0xF00F, 0x8005⟩,
    ⟨0xF00F, 0x8006⟩, ⟨0xF00F, 0x8007⟩, ⟨0xF00F, 0x800E⟩, ⟨0xF00F, 0x9000⟩]
  ++ [⟨0xF000, 0xA000⟩, ⟨0xF000, 0xB000⟩, ⟨0xF000, 0xC000⟩, ⟨0xF000, 0xD000⟩, ⟨0xF0FF, 0xE09E⟩, ⟨0xF0FF, 0xE0A1⟩]
  ++ [⟨0xF0FF, 0xF007⟩, ⟨0xF0FF, 0xF00A⟩, ⟨0xF0FF, 0xF015⟩, ⟨0xF0FF, 0xF018⟩, ⟨0xF0FF, 0xF01E⟩, ⟨0xF0FF, 0xF029⟩,
    ⟨0xF0FF, 0xF033⟩, ⟨0xF0FF, 0xF055⟩, ⟨0xF0FF, 0xF065⟩]

/-! ## The opcode table's numbering -/

/-- The instruction the decoder reads from an instruction whose bits are `w`, bit 0 the least significant bit of the one
16-bit word (R72), bits at and above `nbits` zero. Every instruction is one word, so bits above 15 are dropped. -/
def decodeTableWord (nbits w : Nat) : Option Instr :=
  match decodeBytes (bytesOfWord (BitVec.ofNat 16 (w % 2 ^ nbits))) with
  | .ok (i, _) => some i
  | .error _ => none

end Sys2Proof
end

