-- ==== Sys2Proof/Config.lean ====
section
/-! DEFINITION. What the spec leaves free (00_scope.md R6): the random byte and the host's events. The quirk flag `increment_i` is a
field of State (log 11), the host's plan is one too (log 13), and the font table is `Sys2Proof.Machine.fontTable` (log 2). -/

namespace Sys2Proof

namespace Machine

/-- The six events in which all state changes happen (00_scope.md R8). -/
inductive HostEvent where
  /-- `Reset` (R240) -/
  | reset
  /-- `Load(image)` (R243) -/
  | load (image : List Byte)
  /-- `KeyWrite(k)`, bit `j` of `k` for key `j` (R214) -/
  | keyWrite (k : BitVec 16)
  /-- `Step` (R70) -/
  | step
  /-- `Tick` (R210) -/
  | tick
  /-- `DrawAck` (R217) -/
  | drawAck
  deriving DecidableEq, Repr, Inhabited

end Machine

/-- The free 8-bit draw of the n-th executed CXNN (00_scope.md R6 `rand`, 10_state.md R36, D15): any byte, and no rule
relates one draw to another. DESIGN CHOICE, log 12: a constant with no body, so no proof can know a value of it. Safe. -/
opaque Config.randomByte : Nat → Byte

/-- The n-th event of a host that is free in its choice (00_scope.md R6 host schedule, R10, D25): any event at any turn, so the
constant stands for every endless schedule. DESIGN CHOICE, log 13: no body, so no proof can know a value of it. A claim that needs a
fair host says so of this constant in a premise. Safe. -/
opaque Config.hostEvent : Nat → Machine.HostEvent

end Sys2Proof
end

