-- ==== Sys2Proof/Machine/State.lean ====
section
/-! DEFINITION. The machine's state as plain data (10_state.md), the reasons a step could stop, and the state after Reset
(70_reset_and_hazards.md R240). -/

namespace Sys2Proof.Machine

/-- Memory as (address, byte) pairs in the canonical form `Memory.wf` (Machine/Memory.lean): an address not listed reads as
Reset leaves it (`resetByte`). -/
abbrev Memory := List Host.Cell

/-- The framebuffer (10_state.md R29): 32 rows of 64 pixels. Bit `px` of row `py` is the pixel at column `px` and row `py`, which
the spec numbers `py * 64 + px`. -/
abbrev Frame := Vector (BitVec 64) 32

/-- The register file. -/
abbrev RegFile := Vector Byte 16

/-- The return stack's entries (10_state.md R24, D4, log 18). -/
abbrev Stack := Vector Word 16

/-- A condition: a report to the host with the information R201 records; never a transfer of control (60_exceptions.md R200). -/
inductive Condition where
  /-- A Step fetched a word that selects no instruction: the word and `pc` before the Step. -/
  | unknownOpcode (op pc : Word)
  /-- A CALL executed with `sp = 16`: `pc` before the Step. -/
  | stackOverflow (pc : Word)
  /-- A RET executed with `sp = 0`: `pc` before the Step. -/
  | stackUnderflow (pc : Word)
  /-- A Load was given an image of more than 3584 bytes: its length. -/
  | programTooLarge (len : Nat)
  /-- The host could not read the image. It arises outside the core, so no event of the model raises it (log 21). -/
  | ioFailure
  deriving DecidableEq, Repr

/-- What the host does after the events listed in `schedule`, for ever (00_scope.md R10, D25, log 13). -/
inductive Afterwards where
  /-- It issues these events round and round, `first` next: the nominal schedule of R10, "then forever", is one of these. -/
  | repeats (first : HostEvent) (rest : List HostEvent)
  /-- It issues any endless sequence of events: `Config.hostEvent turn`, `Config.hostEvent (turn + 1)`, ... -/
  | free (turn : Nat)
  deriving DecidableEq, Repr

/-- The machine's state. The first eleven fields are the Machine State of 10_state.md section 1. -/
structure State where
  /-- 4096 bytes (R28). -/
  memory : Memory
  /-- `V[0]` to `V[15]`; `V[15]` is `VF` (R20, R21). -/
  V : RegFile
  /-- The index register, 16 bits, never masked (R23, D14, log 18). -/
  I : Word
  /-- The program counter, 16 bits, never masked (R22, D2, log 18). -/
  pc : Word
  /-- 16 return addresses (R24). -/
  stack : Stack
  /-- The number of return addresses held, 0 to 16 (R25, R39 (a)). -/
  sp : Fin 17
  /-- R26. -/
  delayTimer : Byte
  /-- R27. -/
  soundTimer : Byte
  /-- The framebuffer (R29). -/
  gfx : Frame
  /-- The keypad snapshot, bit `k` = 1 when key `k` is pressed (R30, R214). -/
  key : BitVec 16
  /-- Redraw pending (R31). -/
  drawFlag : Bool
  /-- The quirk flag (R32): configuration that no event changes. Log 11. -/
  incrementI : Bool
  /-- What the latest Step returned to the host: a condition or none (R200, R219 `cond`, `cond_info`). Log 14. -/
  cond : Option Condition
  /-- What the latest Load returned: `programTooLarge` or none (R219 `load_result`). Log 14. -/
  loadResult : Option Condition
  /-- The model's own: the first run-time condition raised, never cleared (advised by R205). Log 14. -/
  faultMark : Option Condition
  /-- The model's own: how many random bytes have been drawn, so that each draw is a fresh free byte (R36). Log 12. -/
  draws : Nat
  /-- The model's own: the host's coming events, the next one first (R10). Log 13. -/
  schedule : List HostEvent
  /-- The model's own: what the host issues once `schedule` is empty (R10, D25). Log 13. -/
  afterwards : Afterwards
  deriving DecidableEq, Repr

/-- Why the machine would stop with a fault. No constructor: the hardware has no condition that ends a Step, "log and continue ...
never to terminate the process" (60_exceptions.md R200, R201). Nobody raises one. -/
inductive Fault
  deriving DecidableEq, Repr

/-- Why an instruction is refused. -/
inductive Refusal where
  /-- The instruction has no meaning yet. Raised by an arm of `exec` alone, and by none now. Safe. -/
  | notModelled (mnemonic : String)
  deriving DecidableEq, Repr

/-- The machine right after Reset (R240): everything zero, `pc` at 0x200, the font in memory (which is what unlisted addresses
read as). `incrementI` has its default (R32). The fields below `incrementI` are outputs and the model's own; their
values here are DESIGN CHOICE (log 12, log 13, log 14). -/
def State.reset : State where
  memory := []
  V := Vector.replicate 16 0
  I := 0
  pc := 0x0200
  stack := Vector.replicate 16 0
  sp := 0
  delayTimer := 0
  soundTimer := 0
  gfx := Vector.replicate 32 0
  key := 0
  drawFlag := false
  incrementI := false
  cond := none
  loadResult := none
  faultMark := none
  draws := 0
  schedule := []
  afterwards := .repeats .step []

end Sys2Proof.Machine
end

