-- ==== Sys2Proof/Machine/Memory.lean ====
section
/-! DEFINITION. The 4096-byte memory (20_memory.md): what Reset leaves in it, reading and writing one byte, blocks, and its
canonical form. Addresses given to `Memory.read` and `Memory.write` are already reduced to 0..4095 (00_scope.md R12, R51). -/

namespace Sys2Proof.Machine

/-- The font table: 16 glyphs of 5 bytes (20_memory.md R58). The configuration constant FONT: UNVERIFIED, log 2 (the source does not
give the bytes; these are the customary ones the spec prints, G3). -/
def fontTable : List Byte :=
  [0xF0, 0x90, 0x90, 0x90, 0xF0, 0x20, 0x60, 0x20, 0x20, 0x70]
  ++ [0xF0, 0x10, 0xF0, 0x80, 0xF0, 0xF0, 0x10, 0xF0, 0x10, 0xF0]
  ++ [0x90, 0x90, 0xF0, 0x10, 0x10, 0xF0, 0x80, 0xF0, 0x10, 0xF0]
  ++ [0xF0, 0x80, 0xF0, 0x90, 0xF0, 0xF0, 0x10, 0x20, 0x40, 0x40]
  ++ [0xF0, 0x90, 0xF0, 0x90, 0xF0, 0xF0, 0x90, 0xF0, 0x10, 0xF0]
  ++ [0xF0, 0x90, 0xF0, 0x90, 0x90, 0xE0, 0x90, 0xE0, 0x90, 0xE0]
  ++ [0xF0, 0x80, 0x80, 0x80, 0xF0, 0xE0, 0x90, 0x90, 0x90, 0xE0]
  ++ [0xF0, 0x80, 0xF0, 0x80, 0xF0, 0xF0, 0x80, 0xF0, 0x80, 0x80]

/-- What Reset leaves at an address, and so what an unlisted address reads as: the font at 0x050 to 0x09F, 0 elsewhere
(R28, R57, R240). -/
def resetByte (a : Nat) : Byte :=
  if 0x050 ≤ a then fontTable.getD (a - 0x050) 0 else 0

/-- `MemRead(a, 1)`: the byte last written, or what Reset left (R50, R61). -/
def Memory.read : Memory → Nat → Byte
  | [], a => resetByte a
  | c :: m, a => if c.1 = a then c.2 else Memory.read m a

/-- Puts a cell before the first cell of a greater address. -/
def insertCell (c : Host.Cell) : Memory → Memory
  | [] => [c]
  | d :: m => if c.1 < d.1 then c :: d :: m else d :: insertCell c m

/-- `MemWrite(a, 1, v)`: writing what the unlisted address reads as removes the entry, so that equal memories are equal lists. -/
def Memory.write (m : Memory) (a : Nat) (v : Byte) : Memory :=
  let rest := m.filter (fun c => c.1 != a)
  if v = resetByte a then rest else insertCell (a, v) rest

/-- The address of the k-th byte of a block at `base`, reduced to memory: `ea(k) = (base + k) mod 4096` (R51, R52; D1, D2, log 3). -/
def wrapAddr (base k : Nat) : Nat := (base + k) % 4096

/-- Stores bytes at `base`, `base + 1`, ..., each address reduced modulo 4096, in increasing order (R54, R56). -/
def Memory.writeBlock (m : Memory) (base : Nat) : List Byte → Memory
  | [] => m
  | v :: vs => Memory.writeBlock (Memory.write m (wrapAddr base 0) v) (base + 1) vs

/-- The canonical form: addresses strictly rising and inside memory, and no entry equal to what an unlisted address reads as. -/
abbrev Memory.wf (m : Memory) : Prop :=
  m.Pairwise (fun c d => c.1 < d.1) ∧ ∀ c ∈ m, c.1 < 4096 ∧ c.2 ≠ resetByte c.1

end Sys2Proof.Machine
end

