-- ==== Sys2Proof/Machine/Ops.lean ====
section
/-! DEFINITION. The named operations over the state: registers, special registers, memory, the program counter, the return
stack, the random draw, and raising a condition. Each writes the fields its name says and no other. -/

namespace Sys2Proof.Machine

/-! ## Registers (10_state.md R20 to R31) -/

/-- The read of general register `x` (R12 `V[x]`). No register is hardwired (R20). -/
def State.reg (s : State) (x : Reg) : Byte := s.V[x]

/-- The write of general register `x` (R12 `V[x] <- v`). -/
def State.setReg (s : State) (x : Reg) (v : Byte) : State := { s with V := s.V.set x.val v }

/-- Replaces the register file (FX65). -/
def State.setRegs (s : State) (v : RegFile) : State := { s with V := v }

/-- The write of `VF` = `V[15]` (R21). -/
def State.setVF (s : State) (v : Byte) : State := s.setReg 15 v

/-- `I <- v` (R23). -/
def State.setI (s : State) (v : Word) : State := { s with I := v }

/-- `delay_timer <- v` (R26). -/
def State.setDelay (s : State) (v : Byte) : State := { s with delayTimer := v }

/-- `sound_timer <- v` (R27). -/
def State.setSound (s : State) (v : Byte) : State := { s with soundTimer := v }

/-- Replaces the framebuffer and marks a redraw pending: its writers always do both (R31, D23, log 22). -/
def State.redraw (s : State) (g : Frame) : State := { s with gfx := g, drawFlag := true }

/-! ## Program counter (R22): all arithmetic modulo 65536, never masked to 12 bits -/

/-- `pc <- target`. -/
def State.setPc (s : State) (target : Word) : State := { s with pc := target }

/-- `pc <- pc + 2`: the instruction after this one (R71). -/
def State.advance (s : State) : State := s.setPc (s.pc + 2)

/-- A skip: `pc + 4` when the comparison holds, else `pc + 2` (40_control_flow.md R107). -/
def State.skipIf (s : State) (c : Bool) : State := s.setPc (if c then s.pc + 4 else s.pc + 2)

/-! ## Memory -/

/-- `MemRead(a, 1)`. -/
def State.read (s : State) (a : Nat) : Byte := Memory.read s.memory a

/-- Stores a block of bytes at `base` (R54, R56); it may hit any address (R60, D18, log 23). -/
def State.writeBlock (s : State) (base : Nat) (vs : List Byte) : State :=
  { s with memory := Memory.writeBlock s.memory base vs }

/-! ## Return stack (R24, R25) -/

/-- `stack[sp] <- a; sp <- sp + 1`, for a stack that is not full. -/
def State.push (s : State) (a : Word) (h : s.sp.val < 16) : State :=
  { s with stack := s.stack.set s.sp.val a, sp := ⟨s.sp.val + 1, by omega⟩ }

/-- The entry a pop reads, `stack[sp - 1]`, for a stack that is not empty. -/
def State.top (s : State) (_h : 0 < s.sp.val) : Word := s.stack[s.sp.val - 1]'(by omega)

/-- `sp <- sp - 1`; the entry left keeps its value (D27, log 25). -/
def State.pop (s : State) : State := { s with sp := ⟨s.sp.val - 1, by omega⟩ }

/-! ## Random draw (R36, D15) -/

/-- The 8-bit draw of this Step: a free value. -/
def State.rand (s : State) : Byte := Config.randomByte s.draws

/-- The draw is used up, so that the next one is another free value. -/
def State.drawn (s : State) : State := { s with draws := s.draws + 1 }

/-! ## Conditions (60_exceptions.md section 1)

The hardware's one form of exception. Entry saves nothing and goes nowhere (R204): the raising rule sets `pc` itself.
There is no return from a condition, since nothing is entered (R205). -/

/-- `raise C(info)`: the event returns `C` to the host. It does not end the rule (00_scope.md R12). The mark keeps the first
condition for ever (R205, log 14). -/
def State.raise (s : State) (c : Condition) : State :=
  { s with cond := some c, faultMark := s.faultMark.or (some c) }

/-- A Step begins with nothing raised: it returns none unless its rule raises (R200, R203). -/
def State.beginStep (s : State) : State := { s with cond := none }

/-- The fallback for a word that selects no instruction (47_unknown.md R180): report it and go on to the next word. -/
def State.unknownOpcode (s : State) (op : Word) : State := (s.raise (.unknownOpcode op s.pc)).advance

/-- The condition codes of R201, 0 for none. The numbering is the spec's own (D19, log 28). -/
def conditionCode : Option Condition → Nat
  | none => 0
  | some (.unknownOpcode _ _) => 1
  | some (.stackOverflow _) => 2
  | some (.stackUnderflow _) => 3
  | some (.programTooLarge _) => 4
  | some .ioFailure => 5

end Sys2Proof.Machine
end

