-- ==== Sys2Proof/Machine/Flags.lean ====
section
/-! DEFINITION. The flag computations: VF is the only flag, 0 or 1 (10_state.md R21), and the one discipline by which the
flag-writing instructions of group 8 write it (42_alu.md R129). -/

namespace Sys2Proof.Machine

/-- The 8-bit value 1 or 0 of a comparison (00_scope.md R11). -/
def flagByte (b : Bool) : Byte := if b then 1 else 0

/-- Carry: the 9-bit sum exceeds 255 (R124). -/
def carryOut (a b : Byte) : Bool := decide (a.toNat + b.toNat > 255)

/-- The subtract flag: the minuend is strictly greater, so equal operands give 0 (R125, R127, C7). -/
def strictlyGreater (a b : Byte) : Bool := decide (a.toNat > b.toNat)

/-- The bit a right shift drops: bit 0 (R126). -/
def lowBit (a : Byte) : Bool := a.getLsbD 0

/-- The bit a left shift drops: bit 7 (R128). -/
def highBit (a : Byte) : Bool := a.getLsbD 7

/-- R129: `VF` receives the flag, then `V[x]` the result computed from the operands as they were (D7, log 6), then `pc + 2`. With
`x = 15` the result overwrites the flag. -/
def State.writeFlagged (s : State) (x : Reg) (flag : Bool) (result : Byte) : State :=
  ((s.setVF (flagByte flag)).setReg x result).advance

end Sys2Proof.Machine
end

