-- ==== Sys2Proof/Machine/Alu.lean ====
section
/-! DEFINITION. Register arithmetic and logic (42_alu.md): group 8. -/

namespace Sys2Proof.Machine

/-- `LD Vx, Vy` (R120). -/
def execLdReg (x y : Reg) (s : State) : Host.Outcome State Fault Refusal :=
  .next (s.setReg x (s.reg y)).advance

/-- `OR Vx, Vy` (R121): no flag. -/
def execOrReg (x y : Reg) (s : State) : Host.Outcome State Fault Refusal :=
  .next (s.setReg x (s.reg x ||| s.reg y)).advance

/-- `AND Vx, Vy` (R122): no flag. -/
def execAndReg (x y : Reg) (s : State) : Host.Outcome State Fault Refusal :=
  .next (s.setReg x (s.reg x &&& s.reg y)).advance

/-- `XOR Vx, Vy` (R123): no flag. -/
def execXorReg (x y : Reg) (s : State) : Host.Outcome State Fault Refusal :=
  .next (s.setReg x (s.reg x ^^^ s.reg y)).advance

/-- `ADD Vx, Vy` (R124, R129): VF is the carry. -/
def execAddReg (x y : Reg) (s : State) : Host.Outcome State Fault Refusal :=
  .next (s.writeFlagged x (carryOut (s.reg x) (s.reg y)) (s.reg x + s.reg y))

/-- `SUB Vx, Vy` (R125, R129): VF is 1 iff `V[x] > V[y]`. -/
def execSubReg (x y : Reg) (s : State) : Host.Outcome State Fault Refusal :=
  .next (s.writeFlagged x (strictlyGreater (s.reg x) (s.reg y)) (s.reg x - s.reg y))

/-- `SHR Vx` (R126, R129): `V[x]` in place, `y` ignored (R79, D8, log 7). -/
def execShr (x _y : Reg) (s : State) : Host.Outcome State Fault Refusal :=
  .next (s.writeFlagged x (lowBit (s.reg x)) (s.reg x >>> 1))

/-- `SUBN Vx, Vy` (R127, R129): VF is 1 iff `V[y] > V[x]`. -/
def execSubnReg (x y : Reg) (s : State) : Host.Outcome State Fault Refusal :=
  .next (s.writeFlagged x (strictlyGreater (s.reg y) (s.reg x)) (s.reg y - s.reg x))

/-- `SHL Vx` (R128, R129): `V[x]` in place, `y` ignored (R79, D8, log 7). -/
def execShl (x _y : Reg) (s : State) : Host.Outcome State Fault Refusal :=
  .next (s.writeFlagged x (highBit (s.reg x)) (s.reg x <<< 1))

end Sys2Proof.Machine
end

