-- ==== Sys2Proof/Machine/Operands.lean ====
section
/-! DEFINITION. The operand forms: zero-extended addresses, indexed memory addresses, the key index, the font address, decimal
digits, screen coordinates. -/

namespace Sys2Proof.Machine

/-- `zext_16(nnn)`: an address operand widened with zeros (30_encoding.md R76). -/
def zextAddr (nnn : BitVec 12) : Word := nnn.setWidth 16

/-- `zext_16(v)`: a register widened with zeros (R76). -/
def zextByte (v : Byte) : Word := v.setWidth 16

/-- `ea(k) = (I + k) mod 4096`, the one addressing mode (20_memory.md R51, 46_memory_ops.md). -/
def State.ea (s : State) (k : Nat) : Nat := wrapAddr s.I.toNat k

/-- The key a register names: its low 4 bits (45_keypad_timers.md R160, D11, log 9). -/
def keyIndex (v : Byte) : Nat := (v &&& 0x0F).toNat

/-- `key[k] = 1`? (R30) -/
def State.pressed (s : State) (k : Nat) : Bool := s.key.getLsbD k

/-- The least index of a pressed key, if any (R162). -/
def State.firstKey (s : State) : Option Nat := (List.range 16).find? s.pressed

/-- `0x0050 + (v & 0x0F) * 5`: the address of a digit's glyph (43_index_random.md R143). -/
def fontAddress (v : Byte) : Word := 0x0050 + zextByte (v &&& 0x0F) * 5

/-- The three decimal digits of a byte, hundreds first (46_memory_ops.md R170, R54). -/
def bcdDigits (v : Byte) : List Byte := [v / 100, v / 10 % 10, v % 10]

/-- `V[0]` to `V[x]`, in order (R171). -/
def State.regsUpTo (s : State) (x : Reg) : List Byte := s.V.toList.take (x.val + 1)

/-- The register file with `V[i] <- ea(i)`'s byte for i = 0 .. x (R172). -/
def State.loadedRegs (s : State) (x : Reg) : RegFile :=
  Vector.ofFn fun r => if r ≤ x then s.read (s.ea r.val) else s.reg r

/-- `I + x + 1` when the quirk is on, `I` as it is when off (R171, R172; D13, log 10). -/
def State.indexAfter (s : State) (x : Reg) : Word :=
  if s.incrementI then s.I + BitVec.ofNat 16 (x.val + 1) else s.I

/-- Screen column `(x0 + c) mod 64` (44_display.md R151). -/
def column (x0 : Byte) (c : Nat) : Fin 64 := ⟨(x0.toNat + c) % 64, Nat.mod_lt _ (by decide)⟩

/-- Screen row `(y0 + r) mod 32` (R151). -/
def row (y0 : Byte) (r : Nat) : Fin 32 := ⟨(y0.toNat + r) % 32, Nat.mod_lt _ (by decide)⟩

end Sys2Proof.Machine
end

