-- ==== Sys2Proof/Machine/Display.lean ====
section
/-! DEFINITION. Display instructions (44_display.md): clear, draw sprite. -/

namespace Sys2Proof.Machine

/-- The pixel at a column and a row. -/
def Frame.at (g : Frame) (px : Fin 64) (py : Fin 32) : Bool := g[py].getLsbD px.val

/-- `gfx[p]`, the pixel numbered `py * 64 + px` (10_state.md R29). -/
def Frame.pixel (g : Frame) (p : Fin 2048) : Bool :=
  Frame.at g ⟨p.val % 64, by omega⟩ ⟨p.val / 64, by omega⟩

/-- `gfx[p] <- gfx[p] ^ 1`. -/
def Frame.toggle (g : Frame) (px : Fin 64) (py : Fin 32) : Frame :=
  g.set py.val (g[py] ^^^ BitVec.twoPow 64 px.val)

/-- Bit `c` of a sprite row, counted from the left: bit 7 is the leftmost pixel (R151, G2, log 16). -/
def spriteBit (b : Byte) (c : Nat) : Bool := b.getLsbD (7 - c)

/-- A drawing under way: the framebuffer, and whether a set pixel was toggled so far. -/
abbrev Drawing := Frame × Bool

/-- One bit of the sprite at a screen position: a 1 toggles the pixel and collides if it was set, a 0 leaves all alone (R151 (c)). -/
def drawPixel (d : Drawing) (bit : Bool) (px : Fin 64) (py : Fin 32) : Drawing :=
  if bit then (Frame.toggle d.1 px py, d.2 || Frame.at d.1 px py) else d

/-- The first `k` columns of a sprite row, left to right, each column wrapping by itself. -/
def drawColumns (x0 : Byte) (py : Fin 32) (b : Byte) : Nat → Drawing → Drawing
  | 0, d => d
  | k + 1, d => drawPixel (drawColumns x0 py b k d) (spriteBit b k) (column x0 k) py

/-- The first `k` rows of a sprite, top to bottom, each row 8 pixels wide and wrapping by itself; row `r` is `rows r`. -/
def drawRows (x0 y0 : Byte) (rows : Nat → Byte) : Nat → Drawing → Drawing
  | 0, d => d
  | k + 1, d => drawColumns x0 (row y0 k) (rows k) 8 (drawRows x0 y0 rows k d)

/-- The sprite of the current state: row `r` is the byte at `ea(r)`. -/
def State.spriteRow (s : State) (r : Nat) : Byte := s.read (s.ea r)

/-- What DXYN makes of the screen: the coordinates are `V[x]` and `V[y]` as they were (D12, log 6). -/
def State.drawing (s : State) (x y : Reg) (n : Nat) : Drawing :=
  drawRows (s.reg x) (s.reg y) s.spriteRow n (s.gfx, false)

/-- `CLS` (R150). -/
def execCls (s : State) : Host.Outcome State Fault Refusal :=
  .next (s.redraw (Vector.replicate 32 0)).advance

/-- `DRW Vx, Vy, n` (R151): VF is the collision flag, also when nothing is drawn. -/
def execDrw (x y : Reg) (n : Nat) (s : State) : Host.Outcome State Fault Refusal :=
  .next ((s.redraw (s.drawing x y n).1).setVF (flagByte (s.drawing x y n).2)).advance

end Sys2Proof.Machine
end

