-- ==== Sys2Proof/Machine/Immediate.lean ====
section
/-! DEFINITION. Load immediate and add immediate (41_immediate.md). -/

namespace Sys2Proof.Machine

/-- `LD Vx, nn` (R110). -/
def execLdImm (x : Reg) (nn : Byte) (s : State) : Host.Outcome State Fault Refusal :=
  .next (s.setReg x nn).advance

/-- `ADD Vx, nn` (R111): wraps modulo 256, no flag. -/
def execAddImm (x : Reg) (nn : Byte) (s : State) : Host.Outcome State Fault Refusal :=
  .next (s.setReg x (s.reg x + nn)).advance

end Sys2Proof.Machine
end

