-- ==== Sys2Proof/Machine/IndexRandom.lean ====
section
/-! DEFINITION. Index register and random instructions (43_index_random.md). -/

namespace Sys2Proof.Machine

/-- `LD I, nnn` (R140). -/
def execLdIndex (nnn : BitVec 12) (s : State) : Host.Outcome State Fault Refusal :=
  .next (s.setI (zextAddr nnn)).advance

/-- CXNN for a given draw `rand`: `V[x] <- rand & nn` (R141). -/
def State.maskedDraw (s : State) (x : Reg) (nn rand : Byte) : State := (s.setReg x (rand &&& nn)).advance

/-- `RND Vx, nn` (R141): the draw is a free byte (D15, log 12). -/
def execRnd (x : Reg) (nn : Byte) (s : State) : Host.Outcome State Fault Refusal :=
  .next (s.drawn.maskedDraw x nn s.rand)

/-- `ADD I, Vx` (R142): modulo 65536, no flag, not masked to 12 bits (D14, log 18). -/
def execAddIndex (x : Reg) (s : State) : Host.Outcome State Fault Refusal :=
  .next (s.setI (s.I + zextByte (s.reg x))).advance

/-- `LD F, Vx` (R143). -/
def execLdFont (x : Reg) (s : State) : Host.Outcome State Fault Refusal :=
  .next (s.setI (fontAddress (s.reg x))).advance

end Sys2Proof.Machine
end

