-- ==== Sys2Proof/Machine/KeypadTimers.lean ====
section
/-! DEFINITION. Keypad and timer instructions (45_keypad_timers.md). -/

namespace Sys2Proof.Machine

/-- `SKP Vx` (R160): the low 4 bits name the key (D11, log 9). -/
def execSkp (x : Reg) (s : State) : Host.Outcome State Fault Refusal :=
  .next (s.skipIf (s.pressed (keyIndex (s.reg x))))

/-- `SKNP Vx` (R161). -/
def execSknp (x : Reg) (s : State) : Host.Outcome State Fault Refusal :=
  .next (s.skipIf (!s.pressed (keyIndex (s.reg x))))

/-- `LD Vx, DT` (R163). -/
def execLdVxDT (x : Reg) (s : State) : Host.Outcome State Fault Refusal :=
  .next (s.setReg x s.delayTimer).advance

/-- `LD Vx, K` (R162): with no key pressed nothing changes and the same instruction runs again. -/
def execLdVxK (x : Reg) (s : State) : Host.Outcome State Fault Refusal :=
  match s.firstKey with
  | none => .next s
  | some k => .next (s.setReg x (BitVec.ofNat 8 k)).advance

/-- `LD DT, Vx` (R164). -/
def execLdDTVx (x : Reg) (s : State) : Host.Outcome State Fault Refusal :=
  .next (s.setDelay (s.reg x)).advance

/-- `LD ST, Vx` (R165). -/
def execLdSTVx (x : Reg) (s : State) : Host.Outcome State Fault Refusal :=
  .next (s.setSound (s.reg x)).advance

end Sys2Proof.Machine
end

