-- ==== Sys2Proof/Machine/Transfer.lean ====
section
/-! DEFINITION. Loads and stores (46_memory_ops.md): BCD store, register dump, register load. -/

namespace Sys2Proof.Machine

/-- `LD B, Vx` (R170): `I` is not changed, whatever the quirk. -/
def execStoreBcd (x : Reg) (s : State) : Host.Outcome State Fault Refusal :=
  .next (s.writeBlock s.I.toNat (bcdDigits (s.reg x))).advance

/-- `LD [I], Vx` (R171): the addresses use `I` as it was. -/
def execDumpRegs (x : Reg) (s : State) : Host.Outcome State Fault Refusal :=
  .next ((s.writeBlock s.I.toNat (s.regsUpTo x)).setI (s.indexAfter x)).advance

/-- `LD Vx, [I]` (R172). -/
def execLoadRegs (x : Reg) (s : State) : Host.Outcome State Fault Refusal :=
  .next ((s.setRegs (s.loadedRegs x)).setI (s.indexAfter x)).advance

end Sys2Proof.Machine
end

