-- ==== Sys2Proof/Machine/Engine.lean ====
section
/-! DEFINITION. The engine's Step and the other five host events (00_scope.md R8, 60_exceptions.md sections 6 and 7,
70_reset_and_hazards.md sections 1 and 2). -/

namespace Sys2Proof.Machine

/-! ## Step (30_encoding.md R70) -/

/-- The word at `pc`: high byte at `pc mod 4096`, low byte at `(pc + 1) mod 4096` (20_memory.md R52, R53). -/
def State.fetch (s : State) : Word :=
  wordOfBytes (s.read (wrapAddr s.pc.toNat 0)) (s.read (wrapAddr s.pc.toNat 1))

/-- One fetch-decode-execute cycle (R70). The word is fetched from memory as it is now (R62, D24, log 23); nothing happens after the Operation. -/
def engineStep (s : State) : Host.Outcome State Fault Refusal :=
  match decodeWord s.fetch with
  | .ok i => exec i s.beginStep
  | .error _ => .next (s.beginStep.unknownOpcode s.fetch)

/-! ## The host's other events -/

/-- `Reset` (R240). Every element of the Machine State takes its reset value; the configuration stays (R32), and so do the model's own
fields: the draws go on (no draw repeats an earlier one, log 12), the mark is never cleared (R205, log 14), the host's coming events
remain (log 13). -/
def State.hostReset (s : State) : State :=
  { State.reset with
    incrementI := s.incrementI, faultMark := s.faultMark, draws := s.draws, schedule := s.schedule, afterwards := s.afterwards }

/-- `Load(image)` (R243, R244): the size is checked first and nothing is written on failure (D17, log 15). A plain copy over what
is there, whenever it is issued (R245). -/
def State.hostLoad (s : State) (image : List Byte) : State :=
  if image.length + 0x200 > 4096 then { s with loadResult := some (.programTooLarge image.length) }
  else { s.writeBlock 0x200 image with loadResult := none }

/-- `KeyWrite(k)` (R214): all 16 flags at once (D16, log 17). -/
def State.hostKeyWrite (s : State) (k : BitVec 16) : State := { s with key := k }

/-- One timer's countdown, floored at 0 (R210). -/
def countDown (t : Byte) : Byte := if t = 0 then 0 else t - 1

/-- `Tick` (R210): the two timers, independently. -/
def State.hostTick (s : State) : State :=
  { s with delayTimer := countDown s.delayTimer, soundTimer := countDown s.soundTimer }

/-- `DrawAck` (R217). -/
def State.hostDrawAck (s : State) : State := { s with drawFlag := false }

/-- One event (R8). -/
def runEvent (e : HostEvent) (s : State) : Host.Outcome State Fault Refusal :=
  match e with
  | .reset => .next s.hostReset
  | .load image => .next (s.hostLoad image)
  | .keyWrite k => .next (s.hostKeyWrite k)
  | .step => engineStep s
  | .tick => .next s.hostTick
  | .drawAck => .next s.hostDrawAck

/-- The first event of an endless plan (log 13). -/
def Afterwards.next : Afterwards → HostEvent
  | .repeats first _ => first
  | .free turn => Config.hostEvent turn

/-- The plan once its first event is issued: a repeating host puts the event last, a free one takes its next turn. -/
def Afterwards.later : Afterwards → Afterwards
  | .repeats first [] => .repeats first []
  | .repeats first (e :: es) => .repeats e (es ++ [first])
  | .free turn => .free (turn + 1)

/-- The event the host issues next: the head of the schedule, or the plan's when the schedule is empty (R10, log 13). -/
def State.nextEvent (s : State) : HostEvent := s.schedule.headD s.afterwards.next

/-- The state as the event finds it, the event taken off the schedule, or off the plan when the schedule is empty. -/
def State.takeEvent (s : State) : State :=
  { s with
    schedule := s.schedule.tail
    afterwards := if s.schedule.isEmpty then s.afterwards.later else s.afterwards }

/-- Places an instruction word where the next Step fetches it, and makes the host issue Steps (log 15). -/
def State.placeWord (s : State) (op : Word) : State :=
  { s.writeBlock s.pc.toNat (bytesOfWord op) with schedule := [], afterwards := .repeats .step [] }

end Sys2Proof.Machine
end

