-- ==== Sys2Proof/Machine/Step.lean ====
section
/-! DEFINITION. One step of the machine: the host's next event (00_scope.md R8, R9, R10). -/

namespace Sys2Proof.Machine

/-- The host's next event happens, whole (R9). A Step is one of the six (R70). -/
def step (s : State) : Host.Outcome State Fault Refusal :=
  runEvent s.nextEvent s.takeEvent

/-- `s` with the instruction whose bits are `w` (bits at and above `nbits` zero) stored at `pc` and a host that issues Steps. -/
def State.withFetchWord (s : State) (nbits w : Nat) : State :=
  s.placeWord (BitVec.ofNat 16 (w % 2 ^ nbits))

end Sys2Proof.Machine
end

