-- ==== Sys2Proof/Safety.lean ====
section
/-! DEFINITION. The terms in which claims are stated: what an instruction leaves unchanged, the invariant of the state, safe runs, and
the two ways in which states can differ without a program seeing it. -/

namespace Sys2Proof.Machine

/-! ## Frames -/

/-- What an instruction or event is allowed to change; everything else must stay as it was. The program counter is not listed: it may
always change, and the claims say how. -/
structure Changes where
  /-- General registers (VF is register 15). -/
  regs : List Reg := []
  /-- Addresses of memory. -/
  bytes : List Nat := []
  /-- The index register `I`. -/
  index : Bool := false
  /-- The return stack and `sp`. -/
  stack : Bool := false
  delay : Bool := false
  sound : Bool := false
  /-- The framebuffer and `draw_flag`. -/
  screen : Bool := false
  /-- The count of random draws. -/
  draws : Bool := false
  /-- What the Step returned, and the mark of the first condition. -/
  reports : Bool := false

/-- `t` differs from `s` in nothing but the program counter and what `c` lists. Memory is compared through the read of one byte. -/
structure ChangesOnly (c : Changes) (s t : State) : Prop where
  regs : ∀ r, r ∉ c.regs → t.reg r = s.reg r
  bytes : ∀ a, a ∉ c.bytes → t.read a = s.read a
  index : c.index = false → t.I = s.I
  stack : c.stack = false → t.stack = s.stack ∧ t.sp = s.sp
  delay : c.delay = false → t.delayTimer = s.delayTimer
  sound : c.sound = false → t.soundTimer = s.soundTimer
  screen : c.screen = false → t.gfx = s.gfx ∧ t.drawFlag = s.drawFlag
  draws : c.draws = false → t.draws = s.draws
  reports : c.reports = false → t.cond = s.cond ∧ t.faultMark = s.faultMark
  key : t.key = s.key
  incrementI : t.incrementI = s.incrementI
  loadResult : t.loadResult = s.loadResult
  schedule : t.schedule = s.schedule
  afterwards : t.afterwards = s.afterwards

/-- What the five flag-writing instructions of group 8 do (42_alu.md R129): they answer a next state in which `V[x]` is the result and
`VF`, unless it is `V[x]` itself, the flag; `pc` is past the instruction; nothing else changes. -/
def WritesFlagAndResult (i : Instr) (x : Reg) (flag result : Nat) (s : State) : Prop :=
  ∃ t, exec i s = .next t ∧ (t.reg x).toNat = result ∧ (x ≠ 15 → (t.reg 15).toNat = flag) ∧ t.pc = s.pc + 2 ∧
    ChangesOnly { regs := [x, 15] } s t

/-- An instruction that writes one register and no flag: it answers a next state in which `V[x]` is the result, `pc` is past the
instruction, and nothing else changes. -/
def WritesResult (i : Instr) (x : Reg) (result : Byte) (s : State) : Prop :=
  ∃ t, exec i s = .next t ∧ t.reg x = result ∧ t.pc = s.pc + 2 ∧ ChangesOnly { regs := [x] } s t

/-- A skip (40_control_flow.md R107): `pc` goes on by 4 when the comparison holds, else by 2, and nothing else changes. -/
def SkipsWhen (i : Instr) (holds : Prop) (s : State) : Prop :=
  ∃ t, exec i s = .next t ∧ (holds → t.pc = s.pc + 4) ∧ (¬holds → t.pc = s.pc + 2) ∧ ChangesOnly {} s t

/-- The next event is a Step, and `rest` is the schedule after it (00_scope.md R10, log 13): a Step stands at the head of the schedule,
or the schedule is empty and the host issues Steps alone. A Step of another endless plan comes to stand at the head by
`Obligations.EndlessScheduleUnrolls`. -/
def StepIsNext (s : State) (rest : List HostEvent) : Prop :=
  (s.schedule = [] ∧ s.afterwards = .repeats .step [] ∧ rest = []) ∨ s.schedule = .step :: rest

/-! ## The invariant -/

/-- The conditions a Step can raise (60_exceptions.md R201). -/
def Condition.atRunTime : Condition → Bool
  | .unknownOpcode _ _ | .stackOverflow _ | .stackUnderflow _ => true
  | .programTooLarge _ | .ioFailure => false

/-- What holds after Reset and across every event: memory is in its canonical form, a Step returns run-time conditions only, a
condition never goes unmarked, and a Load returns `programTooLarge` only for an image that is too large (R201, R205, R243).
The bounds of 10_state.md R39 (a) to (d) hold by the types of the fields. -/
structure StateInvariant (s : State) : Prop where
  memory : Memory.wf s.memory
  cond : ∀ c, s.cond = some c → c.atRunTime = true
  mark : ∀ c, s.faultMark = some c → c.atRunTime = true
  marked : s.cond ≠ none → s.faultMark ≠ none
  loadResult : ∀ c, s.loadResult = some c → ∃ len, c = .programTooLarge len ∧ 3584 < len

/-! ## Safe runs -/

/-- No run-time condition has been raised so far: the premise that 60_exceptions.md R205 asks of claims about programs. -/
def NoCondition (s : State) : Prop := s.faultMark = none

/-- `k` Ticks one after another (60_exceptions.md R210). -/
def ticks : Nat → State → State
  | 0, s => s
  | k + 1, s => (ticks k s).hostTick

/-! ## The sprite of DXYN -/

/-- The pixel at column `px` and row `py` is under a 1 bit of the sprite that `DRW Vx, Vy, n` draws in state `s` (44_display.md R151):
bit `7 - c` of the byte at `(I + r) mod 4096` goes to column `(V[x] + c) mod 64` and row `(V[y] + r) mod 32`. -/
def UnderSprite (s : State) (x y : Reg) (n : Nat) (px : Fin 64) (py : Fin 32) : Prop :=
  ∃ r c, r < n ∧ c < 8 ∧ (s.read ((s.I.toNat + r) % 4096)).getLsbD (7 - c) = true ∧
    px.val = ((s.reg x).toNat + c) % 64 ∧ py.val = ((s.reg y).toNat + r) % 32

/-! ## What no program can see -/

/-- The states differ at most in the bits of `I` above the 12 that addresses use (10_state.md R23). -/
def SameButHighIndex (s t : State) : Prop :=
  { t with I := s.I } = s ∧ t.I.toNat % 4096 = s.I.toNat % 4096

/-- The states differ at most in stack entries at and above `sp` (10_state.md R24, D27). -/
def SameButPopped (s t : State) : Prop :=
  { t with stack := s.stack } = s ∧ ∀ j : Fin 16, j.val < s.sp.val → t.stack[j] = s.stack[j]

/-! ## Which instructions write what -/

/-- The six instructions that write VF as a side effect (10_state.md R21). -/
def writesFlag : Instr → Bool
  | .addReg _ _ | .subReg _ _ | .shr _ _ | .subnReg _ _ | .shl _ _ | .drw _ _ _ => true
  | .cls | .ret | .jp _ | .call _ | .seImm _ _ | .sneImm _ _ | .seReg _ _ | .ldImm _ _ | .addImm _ _
  | .ldReg _ _ | .orReg _ _ | .andReg _ _ | .xorReg _ _ | .sneReg _ _ | .ldIndex _ | .jpV0 _ | .rnd _ _
  | .skp _ | .sknp _ | .ldVxDT _ | .ldVxK _ | .ldDTVx _ | .ldSTVx _ | .addIndex _ | .ldFont _ | .storeBcd _
  | .dumpRegs _ | .loadRegs _ => false

/-- The registers an instruction names as destinations of its result: `Vx`, or `V0` to `Vx` for FX65. -/
def destRegs : Instr → List Reg
  | .ldImm x _ | .addImm x _ | .ldReg x _ | .orReg x _ | .andReg x _ | .xorReg x _ | .addReg x _ | .subReg x _
  | .shr x _ | .subnReg x _ | .shl x _ | .rnd x _ | .ldVxDT x | .ldVxK x => [x]
  | .loadRegs x => (List.finRange 16).filter (fun r => decide (r ≤ x))
  | .cls | .ret | .jp _ | .call _ | .seImm _ _ | .sneImm _ _ | .seReg _ _ | .sneReg _ _ | .ldIndex _ | .jpV0 _
  | .drw _ _ _ | .skp _ | .sknp _ | .ldDTVx _ | .ldSTVx _ | .addIndex _ | .ldFont _ | .storeBcd _ | .dumpRegs _ => []

/-- The addresses an instruction stores to in state `s`: `ea(0)`, `ea(1)`, ... with `ea(k) = (I + k) mod 4096` (20_memory.md R51,
R56). -/
def storedBytes (i : Instr) (s : State) : List Nat :=
  match i with
  | .storeBcd _ => (List.range 3).map s.ea
  | .dumpRegs x => (List.range (x.val + 1)).map s.ea
  | .cls | .ret | .jp _ | .call _ | .seImm _ _ | .sneImm _ _ | .seReg _ _ | .ldImm _ _ | .addImm _ _
  | .ldReg _ _ | .orReg _ _ | .andReg _ _ | .xorReg _ _ | .addReg _ _ | .subReg _ _ | .shr _ _ | .subnReg _ _
  | .shl _ _ | .sneReg _ _ | .ldIndex _ | .jpV0 _ | .rnd _ _ | .drw _ _ _ | .skp _ | .sknp _ | .ldVxDT _
  | .ldVxK _ | .ldDTVx _ | .ldSTVx _ | .addIndex _ | .ldFont _ | .loadRegs _ => []

end Sys2Proof.Machine
end

