-- ==== Sys2Proof/Certificates/Slice0/Obligations.lean ====
section
/-! DEFINITION. The statements for the provers. Each docstring says which rule of spec/ it formalises. The encodings in them are those
of 30_encoding.md R74, which the spec marks as general knowledge (G1, log 1). -/

open Sys2Proof Sys2Proof.Machine

/-! ## Encoding (30_encoding.md) -/

/-- R74, R75: no operand of a well-formed instruction is lost by encoding and decoding, through the word and through its bytes. -/
def Obligations.DecodeOfEncodeGivesTheInstruction : Prop :=
  ∀ i, WellFormed i →
    decodeWord (encode i) = .ok i ∧ ∀ rest, decodeBytes (encodeBytes i ++ rest) = .ok (i, rest)

/-- R74, R78: a word that decodes is the word of the instruction it decodes to, and that instruction is well-formed. -/
def Obligations.EncodeOfDecodeGivesTheWord : Prop :=
  ∀ op i, decodeWord op = .ok i → encode i = op ∧ WellFormed i

/-- R74: the patterns are disjoint and the decoder follows them: a word selects exactly the row of the instruction it decodes to, and
no row when it decodes to none. -/
def Obligations.EveryWordSelectsItsOneRow : Prop :=
  ∀ op, (∃ i, decodeWord op = .ok i ∧ opcodeTable.filter (fun r => r.selects op) = [rowOf i]) ∨
    (decodeWord op = .error (.unknownOpcode op) ∧ opcodeTable.filter (fun r => r.selects op) = [])

/-- R73 (the four words the source shows) and one word of each other family, written out from R74. -/
def Obligations.WordsOfTheSpecDecode : Prop :=
  decodeWord 0x6005 = .ok (.ldImm 0 5) ∧ decodeWord 0x7003 = .ok (.addImm 0 3) ∧
  decodeWord 0xA250 = .ok (.ldIndex 0x250) ∧ decodeWord 0xF055 = .ok (.dumpRegs 0) ∧
  decodeWord 0x00E0 = .ok .cls ∧ decodeWord 0x2208 = .ok (.call 0x208) ∧ decodeWord 0x8124 = .ok (.addReg 1 2) ∧
  decodeWord 0x81F6 = .ok (.shr 1 15) ∧ decodeWord 0xC10F = .ok (.rnd 1 0x0F) ∧ decodeWord 0xD125 = .ok (.drw 1 2 5) ∧
  decodeWord 0xE19E = .ok (.skp 1) ∧ decodeWord 0xF307 = .ok (.ldVxDT 3) ∧ decodeWord 0xF265 = .ok (.loadRegs 2)

/-- R77, with D9 and D10: the words that select no instruction, group by group. -/
def Obligations.UnknownWordsByGroup : Prop :=
  ∀ op, decodeWord op = .error (.unknownOpcode op) ↔
    (op.toNat / 4096 = 0x0 ∧ op.toNat ≠ 0x00E0 ∧ op.toNat ≠ 0x00EE) ∨
    ((op.toNat / 4096 = 0x5 ∨ op.toNat / 4096 = 0x9) ∧ op.toNat % 16 ≠ 0) ∨
    (op.toNat / 4096 = 0x8 ∧ op.toNat % 16 ∈ [0x8, 0x9, 0xA, 0xB, 0xC, 0xD, 0xF]) ∨
    (op.toNat / 4096 = 0xE ∧ op.toNat % 256 ∉ [0x9E, 0xA1]) ∨
    (op.toNat / 4096 = 0xF ∧ op.toNat % 256 ∉ [0x07, 0x0A, 0x15, 0x18, 0x1E, 0x29, 0x33, 0x55, 0x65])

/-! ## The Step -/

/-- R70, with R52 and R53: when the two bytes at `pc`, high byte first, decode to `i`, the step is `exec i` on the state with the event
taken off the schedule (log 13) and nothing raised yet (log 14). The fetch wrap is the spec's decision D2 (log 3). -/
def Obligations.StepRunsTheDecodedInstruction : Prop :=
  ∀ (s : State) (rest : List HostEvent) (i : Instr), StepIsNext s rest →
    decodeWord (s.read (s.pc.toNat % 4096) ++ s.read ((s.pc.toNat + 1) % 4096)) = .ok i →
    step s = exec i { s with schedule := rest, cond := none }

/-- R180, with R52 and R53: a word that selects no instruction is reported with the word and its address, `pc` goes on by 2, nothing
else changes. The fetch wrap is the spec's decision D2 (log 3), the event is taken off the schedule (log 13) and the report is held in
`cond` and `faultMark` (log 14), both the model's DESIGN CHOICE. -/
def Obligations.UnknownWordIsReportedAndSkipped : Prop :=
  ∀ (s : State) (rest : List HostEvent) (e : DecodeError), StepIsNext s rest →
    decodeWord (s.read (s.pc.toNat % 4096) ++ s.read ((s.pc.toNat + 1) % 4096)) = .error e →
    ∃ t, step s = .next t ∧ t.pc = s.pc + 2 ∧
      t.cond = some (.unknownOpcode (s.read (s.pc.toNat % 4096) ++ s.read ((s.pc.toNat + 1) % 4096)) s.pc) ∧
      ChangesOnly { reports := true } { s with schedule := rest } t

/-- R200 ("log and continue ... never to terminate the process"): every instruction in every state, and every event, answers a next
state. -/
def Obligations.NothingStopsTheMachine : Prop :=
  (∀ i s, ∃ t, exec i s = .next t) ∧ ∀ s, ∃ t, step s = .next t

/-- The host's check word: a decodable word placed at `pc` is the instruction the next step runs (log 15, the model's own load). -/
def Obligations.PlacedWordIsRunNext : Prop :=
  ∀ (s : State) (w : Nat) (i : Instr), w < 65536 → decodeTableWord 16 w = some i →
    step (s.withFetchWord 16 w) = exec i { s.withFetchWord 16 w with cond := none }

/-! ## Control transfer (40_control_flow.md) -/

/-- R100, with D6: a return takes the last pushed address as it is; on an empty stack it is reported and nothing moves. -/
def Obligations.ReturnPopsOrStalls : Prop :=
  (∀ (s : State) (_ : 0 < s.sp.val), ∃ t, exec .ret s = .next t ∧ t.sp.val = s.sp.val - 1 ∧
    t.pc = s.stack[s.sp.val - 1]'(by omega) ∧ t.stack = s.stack ∧ ChangesOnly { stack := true } s t) ∧
  (∀ s : State, s.sp = 0 → ∃ t, exec .ret s = .next t ∧ t.pc = s.pc ∧ t.cond = some (.stackUnderflow s.pc) ∧
    ChangesOnly { reports := true } s t)

/-- R101: the jump sets `pc` to its address; to its own address it changes nothing at all. -/
def Obligations.JumpGoesToItsAddress : Prop :=
  (∀ nnn, decodeWord (formatNNN 0x1 nnn) = .ok (.jp nnn)) ∧
  ∀ (nnn : BitVec 12) (s : State), ∃ t, exec (.jp nnn) s = .next t ∧ t.pc.toNat = nnn.toNat ∧
    ChangesOnly {} s t ∧ (s.pc.toNat = nnn.toNat → t = s)

/-- R102, the stack not full: `pc + 2` is pushed, the other entries stay, `pc` is the target. -/
def Obligations.CallPushesTheReturnAddress : Prop :=
  ∀ (nnn : BitVec 12) (s : State) (_ : s.sp.val < 16), ∃ t, exec (.call nnn) s = .next t ∧
    t.stack[s.sp.val]'(by omega) = s.pc + 2 ∧ (∀ j : Fin 16, j.val ≠ s.sp.val → t.stack[j] = s.stack[j]) ∧
    t.sp.val = s.sp.val + 1 ∧ t.pc.toNat = nnn.toNat ∧ ChangesOnly { stack := true } s t

/-- R102 with D5 (the spec's own decision, log 4): on a full stack the call is reported and skipped. -/
def Obligations.CallOnFullStackIsSkipped : Prop :=
  ∀ (nnn : BitVec 12) (s : State), s.sp = 16 → ∃ t, exec (.call nnn) s = .next t ∧ t.pc = s.pc + 2 ∧
    t.cond = some (.stackOverflow s.pc) ∧ ChangesOnly { reports := true } s t

/-- R102 (a): a call followed by a return comes back to the instruction after the call, for stack depths 1 through 16; only the entry
used differs. -/
def Obligations.CallThenReturnComesBack : Prop :=
  ∀ (nnn : BitVec 12) (s : State), s.sp.val < 16 → ∃ t u, exec (.call nnn) s = .next t ∧ exec .ret t = .next u ∧
    u.pc = s.pc + 2 ∧ u.sp = s.sp ∧ (∀ j : Fin 16, j.val ≠ s.sp.val → u.stack[j] = s.stack[j]) ∧
    ChangesOnly { stack := true } s u

/-- R103, R104, R105, R106: the four compare-and-skip instructions. -/
def Obligations.SkipsCompareUnsignedBytes : Prop :=
  (∀ x nn, decodeWord (formatXNN 0x3 x nn) = .ok (.seImm x nn)) ∧
  (∀ x nn, decodeWord (formatXNN 0x4 x nn) = .ok (.sneImm x nn)) ∧
  (∀ x y, decodeWord (formatXYN 0x5 x y 0x0) = .ok (.seReg x y)) ∧
  (∀ x y, decodeWord (formatXYN 0x9 x y 0x0) = .ok (.sneReg x y)) ∧
  ∀ (x y : Reg) (nn : Byte) (s : State),
    SkipsWhen (.seImm x nn) (s.reg x = nn) s ∧ SkipsWhen (.sneImm x nn) (s.reg x ≠ nn) s ∧
    SkipsWhen (.seReg x y) (s.reg x = s.reg y) s ∧ SkipsWhen (.sneReg x y) (s.reg x ≠ s.reg y) s

/-- R108: `pc` is the address plus `V[0]`, never reduced to 12 bits. -/
def Obligations.JumpWithOffsetAddsV0 : Prop :=
  (∀ nnn, decodeWord (formatNNN 0xB nnn) = .ok (.jpV0 nnn)) ∧
  ∀ (nnn : BitVec 12) (s : State), ∃ t, exec (.jpV0 nnn) s = .next t ∧
    t.pc.toNat = (s.reg 0).toNat + nnn.toNat ∧ ChangesOnly {} s t

/-! ## Immediates (41_immediate.md) -/

/-- R110. -/
def Obligations.LoadImmediateSetsTheRegister : Prop :=
  (∀ x nn, decodeWord (formatXNN 0x6 x nn) = .ok (.ldImm x nn)) ∧
  ∀ (x : Reg) (nn : Byte) (s : State), WritesResult (.ldImm x nn) x nn s

/-- R111: the sum wraps modulo 256 and no flag is written. -/
def Obligations.AddImmediateWrapsWithoutFlag : Prop :=
  (∀ x nn, decodeWord (formatXNN 0x7 x nn) = .ok (.addImm x nn)) ∧
  ∀ (x : Reg) (nn : Byte) (s : State),
    WritesResult (.addImm x nn) x (BitVec.ofNat 8 (((s.reg x).toNat + nn.toNat) % 256)) s

/-! ## Arithmetic and logic (42_alu.md) -/

/-- R120, R121, R122, R123: copy and the three logic operations write `V[x]` and no flag. -/
def Obligations.CopyAndLogicWriteNoFlag : Prop :=
  (∀ x y, decodeWord (formatXYN 0x8 x y 0x0) = .ok (.ldReg x y)) ∧
  (∀ x y, decodeWord (formatXYN 0x8 x y 0x1) = .ok (.orReg x y)) ∧
  (∀ x y, decodeWord (formatXYN 0x8 x y 0x2) = .ok (.andReg x y)) ∧
  (∀ x y, decodeWord (formatXYN 0x8 x y 0x3) = .ok (.xorReg x y)) ∧
  ∀ (x y : Reg) (s : State),
    WritesResult (.ldReg x y) x (s.reg y) s ∧ WritesResult (.orReg x y) x (s.reg x ||| s.reg y) s ∧
    WritesResult (.andReg x y) x (s.reg x &&& s.reg y) s ∧ WritesResult (.xorReg x y) x (s.reg x ^^^ s.reg y) s

/-- R124, for operands other than register 15 (those are `RegisterFifteenAsOperand`): VF is 1 iff the unsigned sum exceeds 255. -/
def Obligations.AddSetsTheCarry : Prop :=
  (∀ x y, decodeWord (formatXYN 0x8 x y 0x4) = .ok (.addReg x y)) ∧
  ∀ (x y : Reg) (s : State), x ≠ 15 → y ≠ 15 →
    WritesFlagAndResult (.addReg x y) x (if (s.reg x).toNat + (s.reg y).toNat > 255 then 1 else 0)
      (((s.reg x).toNat + (s.reg y).toNat) % 256) s

/-- R125 and R127, for operands other than register 15: the flag is 1 iff the minuend is strictly greater, so equal operands give 0. -/
def Obligations.SubtractsSetTheStrictlyGreaterFlag : Prop :=
  (∀ x y, decodeWord (formatXYN 0x8 x y 0x5) = .ok (.subReg x y)) ∧
  (∀ x y, decodeWord (formatXYN 0x8 x y 0x7) = .ok (.subnReg x y)) ∧
  ∀ (x y : Reg) (s : State), x ≠ 15 → y ≠ 15 →
    WritesFlagAndResult (.subReg x y) x (if (s.reg x).toNat > (s.reg y).toNat then 1 else 0)
      (((s.reg x).toNat + 256 - (s.reg y).toNat) % 256) s ∧
    WritesFlagAndResult (.subnReg x y) x (if (s.reg y).toNat > (s.reg x).toNat then 1 else 0)
      (((s.reg y).toNat + 256 - (s.reg x).toNat) % 256) s

/-- R126 and R128 with D8 (the spec's own decision, log 7): `V[x]` is shifted in place by one, whatever `y` is, and the bit shifted out
goes to VF. -/
def Obligations.ShiftsMoveVxByOne : Prop :=
  (∀ x y, decodeWord (formatXYN 0x8 x y 0x6) = .ok (.shr x y)) ∧
  (∀ x y, decodeWord (formatXYN 0x8 x y 0xE) = .ok (.shl x y)) ∧
  ∀ (x y : Reg) (s : State), x ≠ 15 →
    WritesFlagAndResult (.shr x y) x ((s.reg x).toNat % 2) ((s.reg x).toNat / 2) s ∧
    WritesFlagAndResult (.shl x y) x ((s.reg x).toNat / 128) ((s.reg x).toNat * 2 % 256) s

/-- R129 with D7 (the spec's own decision, log 6): register 15 as an operand of the flag writers. The operands are read first, and
with `x = 15` the result overwrites the flag. -/
def Obligations.RegisterFifteenAsOperand : Prop :=
  ∀ (x y : Reg) (s : State), (x = 15 ∨ y = 15) →
    WritesFlagAndResult (.addReg x y) x (if (s.reg x).toNat + (s.reg y).toNat > 255 then 1 else 0)
      (((s.reg x).toNat + (s.reg y).toNat) % 256) s ∧
    WritesFlagAndResult (.subReg x y) x (if (s.reg x).toNat > (s.reg y).toNat then 1 else 0)
      (((s.reg x).toNat + 256 - (s.reg y).toNat) % 256) s ∧
    WritesFlagAndResult (.subnReg x y) x (if (s.reg y).toNat > (s.reg x).toNat then 1 else 0)
      (((s.reg y).toNat + 256 - (s.reg x).toNat) % 256) s ∧
    WritesFlagAndResult (.shr x y) x ((s.reg x).toNat % 2) ((s.reg x).toNat / 2) s ∧
    WritesFlagAndResult (.shl x y) x ((s.reg x).toNat / 128) ((s.reg x).toNat * 2 % 256) s

/-! ## Index register and random byte (43_index_random.md) -/

/-- R140. -/
def Obligations.SetIndexLoadsTheAddress : Prop :=
  (∀ nnn, decodeWord (formatNNN 0xA nnn) = .ok (.ldIndex nnn)) ∧
  ∀ (nnn : BitVec 12) (s : State), ∃ t, exec (.ldIndex nnn) s = .next t ∧ t.I.toNat = nnn.toNat ∧
    t.pc = s.pc + 2 ∧ ChangesOnly { index := true } s t

/-- R141 with D15: the free byte of this draw under the mask, whatever it is (log 12); the draw is used up. The result never has a bit
the mask lacks. -/
def Obligations.RandomByteIsMasked : Prop :=
  ∀ (x : Reg) (nn : Byte) (s : State), ∃ t, exec (.rnd x nn) s = .next t ∧
    t.reg x = Config.randomByte s.draws &&& nn ∧ t.reg x &&& ~~~nn = 0 ∧ t.draws = s.draws + 1 ∧ t.pc = s.pc + 2 ∧
    ChangesOnly { regs := [x], draws := true } s t

/-- R142 with D14: the sum is kept to 16 bits, not to 12, and no flag is written. -/
def Obligations.AddToIndexWrapsAtSixteenBits : Prop :=
  ∀ (x : Reg) (s : State), ∃ t, exec (.addIndex x) s = .next t ∧
    t.I.toNat = (s.I.toNat + (s.reg x).toNat) % 65536 ∧ t.pc = s.pc + 2 ∧ ChangesOnly { index := true } s t

/-- R143: only the low nibble of the register counts. -/
def Obligations.FontAddressOfTheLowNibble : Prop :=
  (∀ x, decodeWord (formatXNN 0xF x 0x29) = .ok (.ldFont x)) ∧
  ∀ (x : Reg) (s : State), ∃ t, exec (.ldFont x) s = .next t ∧
    t.I.toNat = 0x0050 + (s.reg x).toNat % 16 * 5 ∧ t.pc = s.pc + 2 ∧ ChangesOnly { index := true } s t

/-! ## Display (44_display.md) -/

/-- R150: every pixel is 0 afterwards and `draw_flag` is set, whatever the screen was. -/
def Obligations.ClearBlanksTheScreen : Prop :=
  decodeWord 0x00E0 = .ok .cls ∧
  ∀ s : State, ∃ t, exec .cls s = .next t ∧ (∀ p, Frame.pixel t.gfx p = false) ∧ t.drawFlag = true ∧
    t.pc = s.pc + 2 ∧ ChangesOnly { screen := true } s t

/-- R151 with D12 and G2 (log 6, log 16): the pixels under a 1 bit of the sprite are toggled and no other, each wrapping by itself;
`draw_flag` is set by every draw. -/
def Obligations.DrawTogglesThePixelsUnderTheSprite : Prop :=
  ∀ (x y : Reg) (n : Nat) (s : State), n < 16 → ∃ t, exec (.drw x y n) s = .next t ∧
    (∀ px py, UnderSprite s x y n px py → Frame.at t.gfx px py = !Frame.at s.gfx px py) ∧
    (∀ px py, ¬UnderSprite s x y n px py → Frame.at t.gfx px py = Frame.at s.gfx px py) ∧
    t.drawFlag = true ∧ t.pc = s.pc + 2 ∧ ChangesOnly { regs := [15], screen := true } s t

/-- R151 with D12 and G2: VF is 1 iff a pixel under the sprite was set, else 0. -/
def Obligations.DrawFlagsACollision : Prop :=
  ∀ (x y : Reg) (n : Nat) (s : State), n < 16 → ∃ t, exec (.drw x y n) s = .next t ∧
    ((∃ px py, UnderSprite s x y n px py ∧ Frame.at s.gfx px py = true) → t.reg 15 = 1) ∧
    ((∀ px py, UnderSprite s x y n px py → Frame.at s.gfx px py = false) → t.reg 15 = 0)

/-- R151's Operation: the same sprite drawn twice at the same place leaves the screen as it was, and the second draw collides iff a
pixel under the sprite was 0 before the first (R151 (g) says "if the sprite has any 1 bit", which the Operation makes true only when
such a pixel was 0, log 19). Register 15 is kept out of the coordinates, since the first draw writes it. -/
def Obligations.DrawingTwiceRestoresTheScreen : Prop :=
  ∀ (x y : Reg) (n : Nat) (s : State), n < 16 → x ≠ 15 → y ≠ 15 → ∃ t u,
    exec (.drw x y n) s = .next t ∧ exec (.drw x y n) t = .next u ∧ u.gfx = s.gfx ∧
    (u.reg 15 = 1 ↔ ∃ px py, UnderSprite s x y n px py ∧ Frame.at s.gfx px py = false)

/-! ## Keypad and timers (45_keypad_timers.md) -/

/-- R160 and R161 with D11 (the spec's own decision, log 9): the low 4 bits of `V[x]` name the key. -/
def Obligations.KeySkipsReadTheSnapshot : Prop :=
  ∀ (x : Reg) (s : State),
    SkipsWhen (.skp x) (s.key.getLsbD ((s.reg x).toNat % 16) = true) s ∧
    SkipsWhen (.sknp x) (s.key.getLsbD ((s.reg x).toNat % 16) = false) s

/-- R162: with no key pressed nothing changes; else the least pressed index goes to `V[x]` and `pc` goes on. -/
def Obligations.KeyWaitStoresTheLeastKey : Prop :=
  (∀ x, decodeWord (formatXNN 0xF x 0x0A) = .ok (.ldVxK x)) ∧
  (∀ (x : Reg) (s : State), s.key = 0 → exec (.ldVxK x) s = .next s) ∧
  ∀ (x : Reg) (s : State) (k : Nat), k < 16 → s.key.getLsbD k = true → (∀ j < k, s.key.getLsbD j = false) →
    WritesResult (.ldVxK x) x (BitVec.ofNat 8 k) s

/-- R163, R164, R165: the three timer copies. -/
def Obligations.TimerCopies : Prop :=
  (∀ x, decodeWord (formatXNN 0xF x 0x07) = .ok (.ldVxDT x)) ∧
  (∀ x, decodeWord (formatXNN 0xF x 0x15) = .ok (.ldDTVx x)) ∧
  (∀ x, decodeWord (formatXNN 0xF x 0x18) = .ok (.ldSTVx x)) ∧
  ∀ (x : Reg) (s : State),
    WritesResult (.ldVxDT x) x s.delayTimer s ∧
    (∃ t, exec (.ldDTVx x) s = .next t ∧ t.delayTimer = s.reg x ∧ t.pc = s.pc + 2 ∧ ChangesOnly { delay := true } s t) ∧
    (∃ t, exec (.ldSTVx x) s = .next t ∧ t.soundTimer = s.reg x ∧ t.pc = s.pc + 2 ∧ ChangesOnly { sound := true } s t)

/-! ## Loads and stores (46_memory_ops.md) -/

/-- R170, with the wrap of R51 (D1, log 3): three digits that make up the register's value go to the three bytes at `I`; `I` stays. -/
def Obligations.DecimalDigitsAreStored : Prop :=
  ∀ (x : Reg) (s : State), ∃ t, exec (.storeBcd x) s = .next t ∧
    (t.read (s.I.toNat % 4096)).toNat * 100 + (t.read ((s.I.toNat + 1) % 4096)).toNat * 10 +
      (t.read ((s.I.toNat + 2) % 4096)).toNat = (s.reg x).toNat ∧
    (t.read ((s.I.toNat + 1) % 4096)).toNat < 10 ∧ (t.read ((s.I.toNat + 2) % 4096)).toNat < 10 ∧
    t.pc = s.pc + 2 ∧ ChangesOnly { bytes := storedBytes (.storeBcd x) s } s t

/-- R171, with R51 and D13 (log 3, log 10): `V[0]` to `V[x]` go to memory at `I`; `I` is advanced only by the quirk. -/
def Obligations.RegisterDumpStoresUpToVx : Prop :=
  ∀ (x : Reg) (s : State), ∃ t, exec (.dumpRegs x) s = .next t ∧
    (∀ r : Reg, r ≤ x → t.read ((s.I.toNat + r.val) % 4096) = s.reg r) ∧
    t.I.toNat = (if s.incrementI then (s.I.toNat + x.val + 1) % 65536 else s.I.toNat) ∧
    t.pc = s.pc + 2 ∧ ChangesOnly { bytes := storedBytes (.dumpRegs x) s, index := true } s t

/-- R172, with R51 and D13: memory at `I` goes to `V[0]` to `V[x]`; `I` is advanced only by the quirk. -/
def Obligations.RegisterLoadReadsUpToVx : Prop :=
  ∀ (x : Reg) (s : State), ∃ t, exec (.loadRegs x) s = .next t ∧
    (∀ r : Reg, r ≤ x → t.reg r = s.read ((s.I.toNat + r.val) % 4096)) ∧
    t.I.toNat = (if s.incrementI then (s.I.toNat + x.val + 1) % 65536 else s.I.toNat) ∧
    t.pc = s.pc + 2 ∧ ChangesOnly { regs := destRegs (.loadRegs x), index := true } s t

/-- R62 with D24: a register dump onto the next instruction is seen by the very next fetch, wherever the addresses wrap. -/
def Obligations.StoreIsSeenByTheNextFetch : Prop :=
  ∀ (x : Reg) (s : State), 1 ≤ x.val → s.I.toNat % 4096 = (s.pc.toNat + 2) % 4096 →
    ∃ t, exec (.dumpRegs x) s = .next t ∧ t.fetch = s.reg 0 ++ s.reg 1

/-! ## The host's other events (60_exceptions.md, 70_reset_and_hazards.md) -/

/-- R210: each timer counts down by 1 and stops at 0; nothing else changes. The schedule the event is taken off is the model's (log
13). -/
def Obligations.TickCountsBothTimersDown : Prop :=
  ∀ (s : State) (rest : List HostEvent), s.schedule = .tick :: rest → ∃ t, step s = .next t ∧
    t.delayTimer.toNat = s.delayTimer.toNat - 1 ∧ t.soundTimer.toNat = s.soundTimer.toNat - 1 ∧ t.pc = s.pc ∧
    ChangesOnly { delay := true, sound := true } { s with schedule := rest } t

/-- R211: after `k` Ticks a timer that held `v` holds `v - k`, and never less than 0. -/
def Obligations.TimersReachZeroAfterTheirValue : Prop :=
  ∀ (k : Nat) (s : State), (ticks k s).delayTimer.toNat = s.delayTimer.toNat - k ∧
    (ticks k s).soundTimer.toNat = s.soundTimer.toNat - k

/-- R214 with D16 (the spec's own decision, log 17): all 16 flags are replaced at once and nothing else changes. -/
def Obligations.KeyWriteReplacesTheSnapshot : Prop :=
  ∀ (s : State) (k : BitVec 16) (rest : List HostEvent), s.schedule = .keyWrite k :: rest → ∃ t, step s = .next t ∧
    (∀ j < 16, t.pressed j = k.getLsbD j) ∧ t.pc = s.pc ∧ ChangesOnly {} { s with schedule := rest, key := k } t

/-- R217. The schedule the event is taken off is the model's (log 13). -/
def Obligations.DrawAckClearsTheDrawFlag : Prop :=
  ∀ (s : State) (rest : List HostEvent), s.schedule = .drawAck :: rest → ∃ t, step s = .next t ∧
    t.drawFlag = false ∧ t.gfx = s.gfx ∧ t.pc = s.pc ∧ ChangesOnly { screen := true } { s with schedule := rest } t

/-- R240: every element of the Machine State is at its reset value and the configuration is kept. The font is the named constant
`fontTable` (log 2), and the schedule the event comes from is the model's (log 13). -/
def Obligations.ResetSetsEveryElement : Prop :=
  ∀ (s : State) (rest : List HostEvent), s.schedule = .reset :: rest → ∃ t, step s = .next t ∧
    (∀ i (h : i < fontTable.length), t.read (0x050 + i) = fontTable[i]) ∧ fontTable.length = 80 ∧
    (∀ a, a < 0x050 ∨ 0x0A0 ≤ a → t.read a = 0) ∧ (∀ r, t.reg r = 0) ∧ t.I = 0 ∧ t.pc = 0x0200 ∧
    (∀ j : Fin 16, t.stack[j] = 0) ∧ t.sp = 0 ∧ t.delayTimer = 0 ∧ t.soundTimer = 0 ∧
    (∀ p, Frame.pixel t.gfx p = false) ∧ (∀ k, t.pressed k = false) ∧ t.drawFlag = false ∧ t.incrementI = s.incrementI

/-- R243 and R244 with D17 (the spec's own decision, log 15): an image that fits is copied to 0x200 and nothing else changes; one that
does not is reported and nothing is written. -/
def Obligations.LoadCopiesAnImageThatFits : Prop :=
  ∀ (s : State) (image : List Byte) (rest : List HostEvent), s.schedule = .load image :: rest →
    (image.length ≤ 3584 → ∃ t, step s = .next t ∧ (∀ i (h : i < image.length), t.read (0x200 + i) = image[i]) ∧
      t.pc = s.pc ∧ ChangesOnly { bytes := (List.range image.length).map (fun i => 0x200 + i) }
        { s with schedule := rest, loadResult := none } t) ∧
    (3584 < image.length →
      step s = .next { s with schedule := rest, loadResult := some (.programTooLarge image.length) })

/-! ## The whole machine -/

/-- The state after Reset meets the invariant: memory is in its canonical form (R240 lists nothing there but the font), and the reports
are what `StateInvariant` allows. That `cond`, `faultMark` and `loadResult` are none there is the model's DESIGN CHOICE (log 14). -/
def Obligations.ResetMeetsTheInvariant : Prop := StateInvariant State.reset

/-- R201, R205, R243 and the canonical form of memory: every event keeps the invariant, from every state that meets it. -/
def Obligations.EveryEventKeepsTheInvariant : Prop :=
  ∀ s t : State, StateInvariant s → step s = .next t → StateInvariant t

/-- R23: whether `I` is kept masked to 12 bits makes no difference a program can see. States that differ in the high bits of `I` alone
stay so, whatever event comes. -/
def Obligations.HighIndexBitsAreNeverSeen : Prop :=
  ∀ s t : State, SameButHighIndex s t → ∃ s' t', step s = .next s' ∧ step t = .next t' ∧ SameButHighIndex s' t'

/-- R24: stack entries at and above `sp` are never read before they are written. States that differ there alone stay so, whatever event
comes. -/
def Obligations.PoppedEntriesAreNeverSeen : Prop :=
  ∀ s t : State, SameButPopped s t → ∃ s' t', step s = .next s' ∧ step t = .next t' ∧ SameButPopped s' t'

/-- R21: a register changes only as a destination, or as VF by one of the six flag writers. -/
def Obligations.RegistersChangeOnlyAsDestinations : Prop :=
  ∀ (i : Instr) (s t : State) (r : Reg), exec i s = .next t → r ∉ destRegs i →
    (r = 15 → writesFlag i = false) → t.reg r = s.reg r

/-- R56: memory changes only at the bytes the two storing instructions store to, and those are in memory. -/
def Obligations.MemoryChangesOnlyByStores : Prop :=
  ∀ (i : Instr) (s t : State), exec i s = .next t →
    (∀ a, a ∉ storedBytes i s → t.read a = s.read a) ∧ ∀ a ∈ storedBytes i s, a < 4096

/-- R23, R24, R25, R26, R27, R29, R30, R31, R32: each special register has its own writers. -/
def Obligations.SpecialRegistersHaveTheirWriters : Prop :=
  ∀ (i : Instr) (s t : State), exec i s = .next t →
    (t.gfx ≠ s.gfx ∨ t.drawFlag ≠ s.drawFlag → i = .cls ∨ ∃ x y n, i = .drw x y n) ∧
    (t.delayTimer ≠ s.delayTimer → ∃ x, i = .ldDTVx x) ∧ (t.soundTimer ≠ s.soundTimer → ∃ x, i = .ldSTVx x) ∧
    (t.stack ≠ s.stack → ∃ nnn, i = .call nnn) ∧ (t.sp ≠ s.sp → i = .ret ∨ ∃ nnn, i = .call nnn) ∧
    (t.I ≠ s.I → (∃ nnn, i = .ldIndex nnn) ∨ (∃ x, i = .addIndex x) ∨ (∃ x, i = .ldFont x) ∨
      (s.incrementI = true ∧ ((∃ x, i = .dumpRegs x) ∨ ∃ x, i = .loadRegs x))) ∧
    t.key = s.key ∧ t.incrementI = s.incrementI

/-- R203: which instruction raises which condition; every other leaves the report as it is. -/
def Obligations.ConditionsComeFromCallAndReturn : Prop :=
  ∀ (i : Instr) (s t : State), exec i s = .next t → t.cond = s.cond ∨
    (i = .ret ∧ s.sp = 0 ∧ t.cond = some (.stackUnderflow s.pc)) ∨
    (∃ nnn, i = .call nnn ∧ s.sp = 16 ∧ t.cond = some (.stackOverflow s.pc))

/-- R22: the complete list of what an instruction does to `pc`. -/
def Obligations.ProgramCounterChangesAsListed : Prop :=
  ∀ (i : Instr) (s t : State), exec i s = .next t → t.pc = s.pc + 2 ∨
    (t.pc = s.pc + 4 ∧ ((∃ x nn, i = .seImm x nn ∨ i = .sneImm x nn) ∨ (∃ x y, i = .seReg x y ∨ i = .sneReg x y) ∨
      ∃ x, i = .skp x ∨ i = .sknp x)) ∨
    (∃ nnn : BitVec 12, t.pc.toNat = nnn.toNat ∧ (i = .jp nnn ∨ (i = .call nnn ∧ s.sp ≠ 16))) ∨
    (∃ nnn : BitVec 12, t.pc.toNat = (s.reg 0).toNat + nnn.toNat ∧ i = .jpV0 nnn) ∨
    (∃ j : Fin 16, j.val + 1 = s.sp.val ∧ t.pc = s.stack[j] ∧ i = .ret) ∨
    (t.pc = s.pc ∧ ((i = .ret ∧ s.sp = 0) ∨ (s.key = 0 ∧ ∃ x, i = .ldVxK x)))

/-- R205 (advice to the modeller, log 14): the first run-time condition stays marked for ever, whatever event comes. -/
def Obligations.FirstConditionStaysMarked : Prop :=
  ∀ (s t : State) (c : Condition), step s = .next t → s.faultMark = some c → t.faultMark = some c

/-- R32: no event changes the configuration, Reset included. -/
def Obligations.NoEventChangesTheConfiguration : Prop :=
  ∀ s t : State, step s = .next t → t.incrementI = s.incrementI

/-! ## The host's endless schedules (00_scope.md R10) -/

/-- R10 with D25 (log 13, the model's plan): once the schedule is empty, the step is the step with the plan's first event on the
schedule. A repeating host then has its events in the next order, the one issued last; a free one has taken a turn. -/
def Obligations.EndlessScheduleUnrolls : Prop :=
  ∀ s : State, s.schedule = [] →
    (∀ e, s.afterwards = .repeats e [] → step s = step { s with schedule := [e] }) ∧
    (∀ e f es, s.afterwards = .repeats e (f :: es) →
      step s = step { s with schedule := [e], afterwards := .repeats f (es ++ [e]) }) ∧
    ∀ n, s.afterwards = .free n → step s = step { s with schedule := [Config.hostEvent n], afterwards := .free (n + 1) }

/-- R10, "then forever", with D25 (log 13): the run of a free host never ends and has `Config.hostEvent (n + k)` as its event after `k`
events, whatever that constant is, so every endless schedule is a run of `step`. -/
def Obligations.FreeHostIssuesEveryTurn : Prop :=
  ∀ (s : State) (n k : Nat), s.schedule = [] → s.afterwards = .free n →
    ∃ t, Host.Core.run Sys2Proof.core k s = .next t ∧ t.schedule = [] ∧ t.afterwards = .free (n + k) ∧
      t.nextEvent = Config.hostEvent (n + k)

/-- R10, "then forever", with D25 (log 13): the run of a repeating host never ends, and each of its events comes round again and again:
after any number of rounds and `j` events more, the next event is the one at place `j`. -/
def Obligations.RepeatedEventsComeRoundForEver : Prop :=
  ∀ (s : State) (e : HostEvent) (es : List HostEvent) (rounds j : Nat) (h : j < (e :: es).length), s.schedule = [] →
    s.afterwards = .repeats e es →
    ∃ t, Host.Core.run Sys2Proof.core (rounds * (e :: es).length + j) s = .next t ∧ t.schedule = [] ∧
      t.nextEvent = (e :: es)[j]
end

