-- ==== Sys2Proof/Laws/Decode.lean ====
section
/-! SUPPORT. The fields of the formats (30_encoding.md R72, R75): a word as the number its fields make, each field of a word in a
format, and each word as the format of its fields. -/

namespace Sys2Proof

/-! ### Words as numbers -/

theorem append_toNat {v w : Nat} (a : BitVec v) (b : BitVec w) : (a ++ b).toNat = a.toNat * 2 ^ w + b.toNat := by
  rw [BitVec.toNat_append, ← Nat.shiftLeft_add_eq_or_of_lt b.isLt, Nat.shiftLeft_eq]

theorem formatNNN_toNat (g : BitVec 4) (a : BitVec 12) : (formatNNN g a).toNat = g.toNat * 4096 + a.toNat :=
  append_toNat g a

theorem formatXNN_toNat (g : BitVec 4) (x : Reg) (b : Byte) :
    (formatXNN g x b).toNat = g.toNat * 4096 + x.val * 256 + b.toNat := by
  have h := append_toNat g (regField x ++ b)
  rw [append_toNat (regField x) b] at h
  have hx : (regField x).toNat = x.val := rfl
  refine Eq.trans (b := _) h ?_
  omega

theorem formatXYN_toNat (g : BitVec 4) (x y : Reg) (n : BitVec 4) :
    (formatXYN g x y n).toNat = g.toNat * 4096 + x.val * 256 + y.val * 16 + n.toNat := by
  have h := append_toNat g (regField x ++ (regField y ++ n))
  rw [append_toNat (regField x), append_toNat (regField y)] at h
  have hx : (regField x).toNat = x.val := rfl
  have hy : (regField y).toNat = y.val := rfl
  refine Eq.trans (b := _) h ?_
  omega

/-! ### Fields as numbers -/

theorem fieldG_toNat (op : Word) : (fieldG op).toNat = op.toNat / 4096 % 16 := by
  simp [fieldG, Nat.shiftRight_eq_div_pow]

theorem fieldX_val (op : Word) : (fieldX op).val = op.toNat / 256 % 16 := by
  simp [fieldX, Nat.shiftRight_eq_div_pow]

theorem fieldY_val (op : Word) : (fieldY op).val = op.toNat / 16 % 16 := by
  simp [fieldY, Nat.shiftRight_eq_div_pow]

theorem fieldN_toNat (op : Word) : (fieldN op).toNat = op.toNat % 16 := by
  simp [fieldN]

theorem fieldNN_toNat (op : Word) : (fieldNN op).toNat = op.toNat % 256 := by
  simp [fieldNN]

theorem fieldNNN_toNat (op : Word) : (fieldNNN op).toNat = op.toNat % 4096 := by
  simp [fieldNNN]

/-! ### The fields of a word in a format -/

@[simp] theorem fieldG_formatNNN (g : BitVec 4) (a : BitVec 12) : fieldG (formatNNN g a) = g := by
  apply BitVec.eq_of_toNat_eq; rw [fieldG_toNat, formatNNN_toNat]; omega

@[simp] theorem fieldNNN_formatNNN (g : BitVec 4) (a : BitVec 12) : fieldNNN (formatNNN g a) = a := by
  apply BitVec.eq_of_toNat_eq; rw [fieldNNN_toNat, formatNNN_toNat]; omega

@[simp] theorem fieldG_formatXNN (g : BitVec 4) (x : Reg) (b : Byte) : fieldG (formatXNN g x b) = g := by
  apply BitVec.eq_of_toNat_eq; rw [fieldG_toNat, formatXNN_toNat]; omega

@[simp] theorem fieldX_formatXNN (g : BitVec 4) (x : Reg) (b : Byte) : fieldX (formatXNN g x b) = x := by
  apply Fin.ext; rw [fieldX_val, formatXNN_toNat]; omega

@[simp] theorem fieldNN_formatXNN (g : BitVec 4) (x : Reg) (b : Byte) : fieldNN (formatXNN g x b) = b := by
  apply BitVec.eq_of_toNat_eq; rw [fieldNN_toNat, formatXNN_toNat]; omega

@[simp] theorem fieldG_formatXYN (g : BitVec 4) (x y : Reg) (n : BitVec 4) : fieldG (formatXYN g x y n) = g := by
  apply BitVec.eq_of_toNat_eq; rw [fieldG_toNat, formatXYN_toNat]; omega

@[simp] theorem fieldX_formatXYN (g : BitVec 4) (x y : Reg) (n : BitVec 4) : fieldX (formatXYN g x y n) = x := by
  apply Fin.ext; rw [fieldX_val, formatXYN_toNat]; omega

@[simp] theorem fieldY_formatXYN (g : BitVec 4) (x y : Reg) (n : BitVec 4) : fieldY (formatXYN g x y n) = y := by
  apply Fin.ext; rw [fieldY_val, formatXYN_toNat]; omega

@[simp] theorem fieldN_formatXYN (g : BitVec 4) (x y : Reg) (n : BitVec 4) : fieldN (formatXYN g x y n) = n := by
  apply BitVec.eq_of_toNat_eq; rw [fieldN_toNat, formatXYN_toNat]; omega

/-! ### The other way -/

theorem formatNNN_fields (op : Word) : formatNNN (fieldG op) (fieldNNN op) = op := by
  apply BitVec.eq_of_toNat_eq; rw [formatNNN_toNat, fieldG_toNat, fieldNNN_toNat]; omega

theorem formatXNN_fields (op : Word) : formatXNN (fieldG op) (fieldX op) (fieldNN op) = op := by
  apply BitVec.eq_of_toNat_eq; rw [formatXNN_toNat, fieldG_toNat, fieldX_val, fieldNN_toNat]; omega

theorem formatXYN_fields (op : Word) : formatXYN (fieldG op) (fieldX op) (fieldY op) (fieldN op) = op := by
  apply BitVec.eq_of_toNat_eq; rw [formatXYN_toNat, fieldG_toNat, fieldX_val, fieldY_val, fieldN_toNat]; omega

end Sys2Proof
end

