-- ==== Sys2Proof/Laws/Display.lean ====
section
/-! SUPPORT. Drawing, said once: what toggling a pixel, drawing a row and drawing a sprite do to every pixel (44_display.md R151). -/

namespace Sys2Proof.Machine

/-! ### One pixel -/

theorem Frame.at_toggle (g : Frame) (px qx : Fin 64) (py qy : Fin 32) :
    Frame.at (Frame.toggle g px py) qx qy = if qx = px ∧ qy = py then !Frame.at g qx qy else Frame.at g qx qy := by
  by_cases hy : qy = py
  · subst hy
    by_cases hx : qx = px
    · subst hx; simp [Frame.at, Frame.toggle]
    · have : ¬ qx.val = px.val := fun e => hx (Fin.ext e)
      simp [Frame.at, Frame.toggle, hx, this]
  · have : ¬ py.val = qy.val := fun e => hy (Fin.ext e.symm)
    simp [Frame.at, Frame.toggle, hy, this]

@[simp] theorem Frame.at_blank (px : Fin 64) (py : Fin 32) :
    Frame.at (Vector.replicate 32 0#64) px py = false := by
  simp [Frame.at]

/-- Two framebuffers with the same pixels are the same. -/
theorem Frame.ext_at {g h : Frame} (e : ∀ px py, Frame.at g px py = Frame.at h px py) : g = h := by
  apply Vector.ext
  intro i hi
  apply BitVec.eq_of_getLsbD_eq
  intro j hj
  exact e ⟨j, hj⟩ ⟨i, hi⟩

theorem column_inj {x0 : Byte} {c d : Nat} (hc : c < 64) (hd : d < 64) (h : column x0 c = column x0 d) : c = d := by
  have := congrArg Fin.val h
  simp only [column] at this
  omega

theorem row_inj {y0 : Byte} {c d : Nat} (hc : c < 32) (hd : d < 32) (h : row y0 c = row y0 d) : c = d := by
  have := congrArg Fin.val h
  simp only [row] at this
  omega

/-! ### One row -/

/-- The column `qx` is under a 1 bit of the first `k` columns of the sprite row `b`. -/
def UnderRow (x0 b : Byte) (k : Nat) (qx : Fin 64) : Prop :=
  ∃ c, c < k ∧ spriteBit b c = true ∧ column x0 c = qx

theorem underRow_succ (x0 b : Byte) (k : Nat) (qx : Fin 64) :
    UnderRow x0 b (k + 1) qx ↔ UnderRow x0 b k qx ∨ (spriteBit b k = true ∧ column x0 k = qx) := by
  simp only [UnderRow, Nat.lt_succ_iff_lt_or_eq]
  constructor
  · rintro ⟨c, hc | rfl, h⟩
    · exact .inl ⟨c, hc, h⟩
    · exact .inr h
  · rintro (⟨c, hc, h⟩ | h)
    · exact ⟨c, .inl hc, h⟩
    · exact ⟨k, .inr rfl, h⟩

/-- What drawing `k` columns of a row does to a pixel, and when it collides. -/
theorem drawColumns_spec (x0 : Byte) (py : Fin 32) (b : Byte) (k : Nat) (hk : k ≤ 64) (d : Drawing) :
    (∀ qx qy, (qy = py ∧ UnderRow x0 b k qx → Frame.at (drawColumns x0 py b k d).1 qx qy = !Frame.at d.1 qx qy) ∧
      (¬(qy = py ∧ UnderRow x0 b k qx) → Frame.at (drawColumns x0 py b k d).1 qx qy = Frame.at d.1 qx qy)) ∧
    ((drawColumns x0 py b k d).2 = true ↔
      d.2 = true ∨ ∃ qx, UnderRow x0 b k qx ∧ Frame.at d.1 qx py = true) := by
  induction k with
  | zero => simp [UnderRow, drawColumns]
  | succ k ih =>
    obtain ⟨ih1, ih2⟩ := ih (by omega)
    have hfresh : ¬ UnderRow x0 b k (column x0 k) := by
      rintro ⟨c, hc, -, e⟩
      have := column_inj (by omega) (by omega) e
      omega
    have hat : Frame.at (drawColumns x0 py b k d).1 (column x0 k) py = Frame.at d.1 (column x0 k) py :=
      (ih1 _ _).2 (fun h => hfresh h.2)
    by_cases hb : spriteBit b k = true
    · constructor
      · intro qx qy
        simp only [drawColumns, drawPixel, hb, if_true, Frame.at_toggle, underRow_succ, true_and]
        by_cases hq : qx = column x0 k ∧ qy = py
        · obtain ⟨rfl, rfl⟩ := hq
          simp [hat]
        · rw [if_neg hq]
          constructor
          · rintro ⟨hy, h | h⟩
            · exact (ih1 qx qy).1 ⟨hy, h⟩
            · exact absurd ⟨h.symm, hy⟩ hq
          · intro h
            exact (ih1 qx qy).2 (fun h' => h ⟨h'.1, .inl h'.2⟩)
      · simp only [drawColumns, drawPixel, hb, if_true, Bool.or_eq_true, ih2, hat, underRow_succ, true_and]
        constructor
        · rintro ((h | ⟨qx, h1, h2⟩) | h)
          · exact .inl h
          · exact .inr ⟨qx, .inl h1, h2⟩
          · exact .inr ⟨_, .inr rfl, h⟩
        · rintro (h | ⟨qx, h1 | rfl, h2⟩)
          · exact .inl (.inl h)
          · exact .inl (.inr ⟨qx, h1, h2⟩)
          · exact .inr h2
    · have e : ∀ qx, UnderRow x0 b (k + 1) qx ↔ UnderRow x0 b k qx := by
        intro qx; simp [underRow_succ, hb]
      simp only [drawColumns, drawPixel, hb, e]
      exact ⟨ih1, ih2⟩

/-! ### The whole sprite -/

/-- The pixel is under a 1 bit of the first `k` rows of the sprite. -/
def UnderRows (x0 y0 : Byte) (rows : Nat → Byte) (k : Nat) (qx : Fin 64) (qy : Fin 32) : Prop :=
  ∃ r, r < k ∧ row y0 r = qy ∧ UnderRow x0 (rows r) 8 qx

theorem underRows_succ (x0 y0 : Byte) (rows : Nat → Byte) (k : Nat) (qx : Fin 64) (qy : Fin 32) :
    UnderRows x0 y0 rows (k + 1) qx qy ↔
      UnderRows x0 y0 rows k qx qy ∨ (row y0 k = qy ∧ UnderRow x0 (rows k) 8 qx) := by
  simp only [UnderRows, Nat.lt_succ_iff_lt_or_eq]
  constructor
  · rintro ⟨c, hc | rfl, h⟩
    · exact .inl ⟨c, hc, h⟩
    · exact .inr h
  · rintro (⟨c, hc, h⟩ | h)
    · exact ⟨c, .inl hc, h⟩
    · exact ⟨k, .inr rfl, h⟩

/-- Drawing said once (44_display.md R151): every pixel under the sprite is toggled, every other is left alone, and it collides exactly
when a pixel under the sprite was set. -/
theorem drawRows_spec (x0 y0 : Byte) (rows : Nat → Byte) (k : Nat) (hk : k ≤ 32) (d : Drawing) :
    (∀ qx qy,
      (UnderRows x0 y0 rows k qx qy → Frame.at (drawRows x0 y0 rows k d).1 qx qy = !Frame.at d.1 qx qy) ∧
      (¬UnderRows x0 y0 rows k qx qy → Frame.at (drawRows x0 y0 rows k d).1 qx qy = Frame.at d.1 qx qy)) ∧
    ((drawRows x0 y0 rows k d).2 = true ↔
      d.2 = true ∨ ∃ qx qy, UnderRows x0 y0 rows k qx qy ∧ Frame.at d.1 qx qy = true) := by
  induction k with
  | zero => simp [UnderRows, drawRows]
  | succ k ih =>
    obtain ⟨ih1, ih2⟩ := ih (by omega)
    obtain ⟨c1, c2⟩ := drawColumns_spec x0 (row y0 k) (rows k) 8 (by decide) (drawRows x0 y0 rows k d)
    have hfresh : ∀ qx, ¬ UnderRows x0 y0 rows k qx (row y0 k) := by
      rintro qx ⟨r, hr, e, -⟩
      have := row_inj (by omega) (by omega) e
      omega
    have hat : ∀ qx, Frame.at (drawRows x0 y0 rows k d).1 qx (row y0 k) = Frame.at d.1 qx (row y0 k) :=
      fun qx => (ih1 _ _).2 (hfresh qx)
    constructor
    · intro qx qy
      simp only [drawRows, underRows_succ]
      by_cases hq : row y0 k = qy ∧ UnderRow x0 (rows k) 8 qx
      · obtain ⟨rfl, hu⟩ := hq
        simp [(c1 qx _).1 ⟨rfl, hu⟩, hat, hu]
      · have e := (c1 qx qy).2 (fun h => hq ⟨h.1.symm, h.2⟩)
        rw [e]
        exact ⟨fun h => (ih1 qx qy).1 (h.resolve_right hq), fun h => (ih1 qx qy).2 (fun h' => h (.inl h'))⟩
    · simp only [drawRows, c2, ih2, hat, underRows_succ]
      constructor
      · rintro ((h | ⟨qx, qy, h1, h2⟩) | ⟨qx, h1, h2⟩)
        · exact .inl h
        · exact .inr ⟨qx, qy, .inl h1, h2⟩
        · exact .inr ⟨qx, _, .inr ⟨rfl, h1⟩, h2⟩
      · rintro (h | ⟨qx, qy, h1 | ⟨rfl, h1⟩, h2⟩)
        · exact .inl (.inl h)
        · exact .inl (.inr ⟨qx, qy, h1, h2⟩)
        · exact .inr ⟨qx, h1, h2⟩

/-- The sprite of DXYN in the spec's own arithmetic. -/
theorem underRows_iff_underSprite (s : State) (x y : Reg) (n : Nat) (px : Fin 64) (py : Fin 32) :
    UnderRows (s.reg x) (s.reg y) s.spriteRow n px py ↔ UnderSprite s x y n px py := by
  constructor
  · rintro ⟨r, hr, e, c, hc, hb, e'⟩
    exact ⟨r, c, hr, hc, hb, (congrArg Fin.val e').symm, (congrArg Fin.val e).symm⟩
  · rintro ⟨r, c, hr, hc, hb, e, e'⟩
    exact ⟨r, hr, Fin.ext e'.symm, c, hc, hb, Fin.ext e.symm⟩

end Sys2Proof.Machine
end

