-- ==== Sys2Proof/Laws/State.lean ====
section
/-! SUPPORT. One lemma per field per update of the state, true by rfl, so that no proof unfolds a record update; the reads `reg` and
`read` through every update that does not touch them. -/

namespace Sys2Proof.Machine

variable (s : State)

/-! ### setReg -/

@[simp] theorem State.setReg_memory (x : Reg) (v : Byte) : (s.setReg x v).memory = s.memory := rfl
@[simp] theorem State.setReg_V (x : Reg) (v : Byte) : (s.setReg x v).V = s.V.set x.val v := rfl
@[simp] theorem State.setReg_I (x : Reg) (v : Byte) : (s.setReg x v).I = s.I := rfl
@[simp] theorem State.setReg_pc (x : Reg) (v : Byte) : (s.setReg x v).pc = s.pc := rfl
@[simp] theorem State.setReg_stack (x : Reg) (v : Byte) : (s.setReg x v).stack = s.stack := rfl
@[simp] theorem State.setReg_sp (x : Reg) (v : Byte) : (s.setReg x v).sp = s.sp := rfl
@[simp] theorem State.setReg_delayTimer (x : Reg) (v : Byte) : (s.setReg x v).delayTimer = s.delayTimer := rfl
@[simp] theorem State.setReg_soundTimer (x : Reg) (v : Byte) : (s.setReg x v).soundTimer = s.soundTimer := rfl
@[simp] theorem State.setReg_gfx (x : Reg) (v : Byte) : (s.setReg x v).gfx = s.gfx := rfl
@[simp] theorem State.setReg_key (x : Reg) (v : Byte) : (s.setReg x v).key = s.key := rfl
@[simp] theorem State.setReg_drawFlag (x : Reg) (v : Byte) : (s.setReg x v).drawFlag = s.drawFlag := rfl
@[simp] theorem State.setReg_incrementI (x : Reg) (v : Byte) : (s.setReg x v).incrementI = s.incrementI := rfl
@[simp] theorem State.setReg_cond (x : Reg) (v : Byte) : (s.setReg x v).cond = s.cond := rfl
@[simp] theorem State.setReg_loadResult (x : Reg) (v : Byte) : (s.setReg x v).loadResult = s.loadResult := rfl
@[simp] theorem State.setReg_faultMark (x : Reg) (v : Byte) : (s.setReg x v).faultMark = s.faultMark := rfl
@[simp] theorem State.setReg_draws (x : Reg) (v : Byte) : (s.setReg x v).draws = s.draws := rfl
@[simp] theorem State.setReg_schedule (x : Reg) (v : Byte) : (s.setReg x v).schedule = s.schedule := rfl
@[simp] theorem State.setReg_afterwards (x : Reg) (v : Byte) : (s.setReg x v).afterwards = s.afterwards := rfl
@[simp] theorem State.setReg_read (x : Reg) (v : Byte) (i : Nat) : (s.setReg x v).read i = s.read i := rfl

/-! ### setRegs -/

@[simp] theorem State.setRegs_memory (v : RegFile) : (s.setRegs v).memory = s.memory := rfl
@[simp] theorem State.setRegs_V (v : RegFile) : (s.setRegs v).V = v := rfl
@[simp] theorem State.setRegs_I (v : RegFile) : (s.setRegs v).I = s.I := rfl
@[simp] theorem State.setRegs_pc (v : RegFile) : (s.setRegs v).pc = s.pc := rfl
@[simp] theorem State.setRegs_stack (v : RegFile) : (s.setRegs v).stack = s.stack := rfl
@[simp] theorem State.setRegs_sp (v : RegFile) : (s.setRegs v).sp = s.sp := rfl
@[simp] theorem State.setRegs_delayTimer (v : RegFile) : (s.setRegs v).delayTimer = s.delayTimer := rfl
@[simp] theorem State.setRegs_soundTimer (v : RegFile) : (s.setRegs v).soundTimer = s.soundTimer := rfl
@[simp] theorem State.setRegs_gfx (v : RegFile) : (s.setRegs v).gfx = s.gfx := rfl
@[simp] theorem State.setRegs_key (v : RegFile) : (s.setRegs v).key = s.key := rfl
@[simp] theorem State.setRegs_drawFlag (v : RegFile) : (s.setRegs v).drawFlag = s.drawFlag := rfl
@[simp] theorem State.setRegs_incrementI (v : RegFile) : (s.setRegs v).incrementI = s.incrementI := rfl
@[simp] theorem State.setRegs_cond (v : RegFile) : (s.setRegs v).cond = s.cond := rfl
@[simp] theorem State.setRegs_loadResult (v : RegFile) : (s.setRegs v).loadResult = s.loadResult := rfl
@[simp] theorem State.setRegs_faultMark (v : RegFile) : (s.setRegs v).faultMark = s.faultMark := rfl
@[simp] theorem State.setRegs_draws (v : RegFile) : (s.setRegs v).draws = s.draws := rfl
@[simp] theorem State.setRegs_schedule (v : RegFile) : (s.setRegs v).schedule = s.schedule := rfl
@[simp] theorem State.setRegs_afterwards (v : RegFile) : (s.setRegs v).afterwards = s.afterwards := rfl
@[simp] theorem State.setRegs_read (v : RegFile) (i : Nat) : (s.setRegs v).read i = s.read i := rfl

/-! ### setVF -/

@[simp] theorem State.setVF_memory (v : Byte) : (s.setVF v).memory = s.memory := rfl
@[simp] theorem State.setVF_V (v : Byte) : (s.setVF v).V = s.V.set 15 v := rfl
@[simp] theorem State.setVF_I (v : Byte) : (s.setVF v).I = s.I := rfl
@[simp] theorem State.setVF_pc (v : Byte) : (s.setVF v).pc = s.pc := rfl
@[simp] theorem State.setVF_stack (v : Byte) : (s.setVF v).stack = s.stack := rfl
@[simp] theorem State.setVF_sp (v : Byte) : (s.setVF v).sp = s.sp := rfl
@[simp] theorem State.setVF_delayTimer (v : Byte) : (s.setVF v).delayTimer = s.delayTimer := rfl
@[simp] theorem State.setVF_soundTimer (v : Byte) : (s.setVF v).soundTimer = s.soundTimer := rfl
@[simp] theorem State.setVF_gfx (v : Byte) : (s.setVF v).gfx = s.gfx := rfl
@[simp] theorem State.setVF_key (v : Byte) : (s.setVF v).key = s.key := rfl
@[simp] theorem State.setVF_drawFlag (v : Byte) : (s.setVF v).drawFlag = s.drawFlag := rfl
@[simp] theorem State.setVF_incrementI (v : Byte) : (s.setVF v).incrementI = s.incrementI := rfl
@[simp] theorem State.setVF_cond (v : Byte) : (s.setVF v).cond = s.cond := rfl
@[simp] theorem State.setVF_loadResult (v : Byte) : (s.setVF v).loadResult = s.loadResult := rfl
@[simp] theorem State.setVF_faultMark (v : Byte) : (s.setVF v).faultMark = s.faultMark := rfl
@[simp] theorem State.setVF_draws (v : Byte) : (s.setVF v).draws = s.draws := rfl
@[simp] theorem State.setVF_schedule (v : Byte) : (s.setVF v).schedule = s.schedule := rfl
@[simp] theorem State.setVF_afterwards (v : Byte) : (s.setVF v).afterwards = s.afterwards := rfl
@[simp] theorem State.setVF_read (v : Byte) (i : Nat) : (s.setVF v).read i = s.read i := rfl

/-! ### setI -/

@[simp] theorem State.setI_memory (v : Word) : (s.setI v).memory = s.memory := rfl
@[simp] theorem State.setI_V (v : Word) : (s.setI v).V = s.V := rfl
@[simp] theorem State.setI_I (v : Word) : (s.setI v).I = v := rfl
@[simp] theorem State.setI_pc (v : Word) : (s.setI v).pc = s.pc := rfl
@[simp] theorem State.setI_stack (v : Word) : (s.setI v).stack = s.stack := rfl
@[simp] theorem State.setI_sp (v : Word) : (s.setI v).sp = s.sp := rfl
@[simp] theorem State.setI_delayTimer (v : Word) : (s.setI v).delayTimer = s.delayTimer := rfl
@[simp] theorem State.setI_soundTimer (v : Word) : (s.setI v).soundTimer = s.soundTimer := rfl
@[simp] theorem State.setI_gfx (v : Word) : (s.setI v).gfx = s.gfx := rfl
@[simp] theorem State.setI_key (v : Word) : (s.setI v).key = s.key := rfl
@[simp] theorem State.setI_drawFlag (v : Word) : (s.setI v).drawFlag = s.drawFlag := rfl
@[simp] theorem State.setI_incrementI (v : Word) : (s.setI v).incrementI = s.incrementI := rfl
@[simp] theorem State.setI_cond (v : Word) : (s.setI v).cond = s.cond := rfl
@[simp] theorem State.setI_loadResult (v : Word) : (s.setI v).loadResult = s.loadResult := rfl
@[simp] theorem State.setI_faultMark (v : Word) : (s.setI v).faultMark = s.faultMark := rfl
@[simp] theorem State.setI_draws (v : Word) : (s.setI v).draws = s.draws := rfl
@[simp] theorem State.setI_schedule (v : Word) : (s.setI v).schedule = s.schedule := rfl
@[simp] theorem State.setI_afterwards (v : Word) : (s.setI v).afterwards = s.afterwards := rfl
@[simp] theorem State.setI_reg (v : Word) (r : Reg) : (s.setI v).reg r = s.reg r := rfl
@[simp] theorem State.setI_read (v : Word) (i : Nat) : (s.setI v).read i = s.read i := rfl

/-! ### setDelay -/

@[simp] theorem State.setDelay_memory (v : Byte) : (s.setDelay v).memory = s.memory := rfl
@[simp] theorem State.setDelay_V (v : Byte) : (s.setDelay v).V = s.V := rfl
@[simp] theorem State.setDelay_I (v : Byte) : (s.setDelay v).I = s.I := rfl
@[simp] theorem State.setDelay_pc (v : Byte) : (s.setDelay v).pc = s.pc := rfl
@[simp] theorem State.setDelay_stack (v : Byte) : (s.setDelay v).stack = s.stack := rfl
@[simp] theorem State.setDelay_sp (v : Byte) : (s.setDelay v).sp = s.sp := rfl
@[simp] theorem State.setDelay_delayTimer (v : Byte) : (s.setDelay v).delayTimer = v := rfl
@[simp] theorem State.setDelay_soundTimer (v : Byte) : (s.setDelay v).soundTimer = s.soundTimer := rfl
@[simp] theorem State.setDelay_gfx (v : Byte) : (s.setDelay v).gfx = s.gfx := rfl
@[simp] theorem State.setDelay_key (v : Byte) : (s.setDelay v).key = s.key := rfl
@[simp] theorem State.setDelay_drawFlag (v : Byte) : (s.setDelay v).drawFlag = s.drawFlag := rfl
@[simp] theorem State.setDelay_incrementI (v : Byte) : (s.setDelay v).incrementI = s.incrementI := rfl
@[simp] theorem State.setDelay_cond (v : Byte) : (s.setDelay v).cond = s.cond := rfl
@[simp] theorem State.setDelay_loadResult (v : Byte) : (s.setDelay v).loadResult = s.loadResult := rfl
@[simp] theorem State.setDelay_faultMark (v : Byte) : (s.setDelay v).faultMark = s.faultMark := rfl
@[simp] theorem State.setDelay_draws (v : Byte) : (s.setDelay v).draws = s.draws := rfl
@[simp] theorem State.setDelay_schedule (v : Byte) : (s.setDelay v).schedule = s.schedule := rfl
@[simp] theorem State.setDelay_afterwards (v : Byte) : (s.setDelay v).afterwards = s.afterwards := rfl
@[simp] theorem State.setDelay_reg (v : Byte) (r : Reg) : (s.setDelay v).reg r = s.reg r := rfl
@[simp] theorem State.setDelay_read (v : Byte) (i : Nat) : (s.setDelay v).read i = s.read i := rfl

/-! ### setSound -/

@[simp] theorem State.setSound_memory (v : Byte) : (s.setSound v).memory = s.memory := rfl
@[simp] theorem State.setSound_V (v : Byte) : (s.setSound v).V = s.V := rfl
@[simp] theorem State.setSound_I (v : Byte) : (s.setSound v).I = s.I := rfl
@[simp] theorem State.setSound_pc (v : Byte) : (s.setSound v).pc = s.pc := rfl
@[simp] theorem State.setSound_stack (v : Byte) : (s.setSound v).stack = s.stack := rfl
@[simp] theorem State.setSound_sp (v : Byte) : (s.setSound v).sp = s.sp := rfl
@[simp] theorem State.setSound_delayTimer (v : Byte) : (s.setSound v).delayTimer = s.delayTimer := rfl
@[simp] theorem State.setSound_soundTimer (v : Byte) : (s.setSound v).soundTimer = v := rfl
@[simp] theorem State.setSound_gfx (v : Byte) : (s.setSound v).gfx = s.gfx := rfl
@[simp] theorem State.setSound_key (v : Byte) : (s.setSound v).key = s.key := rfl
@[simp] theorem State.setSound_drawFlag (v : Byte) : (s.setSound v).drawFlag = s.drawFlag := rfl
@[simp] theorem State.setSound_incrementI (v : Byte) : (s.setSound v).incrementI = s.incrementI := rfl
@[simp] theorem State.setSound_cond (v : Byte) : (s.setSound v).cond = s.cond := rfl
@[simp] theorem State.setSound_loadResult (v : Byte) : (s.setSound v).loadResult = s.loadResult := rfl
@[simp] theorem State.setSound_faultMark (v : Byte) : (s.setSound v).faultMark = s.faultMark := rfl
@[simp] theorem State.setSound_draws (v : Byte) : (s.setSound v).draws = s.draws := rfl
@[simp] theorem State.setSound_schedule (v : Byte) : (s.setSound v).schedule = s.schedule := rfl
@[simp] theorem State.setSound_afterwards (v : Byte) : (s.setSound v).afterwards = s.afterwards := rfl
@[simp] theorem State.setSound_reg (v : Byte) (r : Reg) : (s.setSound v).reg r = s.reg r := rfl
@[simp] theorem State.setSound_read (v : Byte) (i : Nat) : (s.setSound v).read i = s.read i := rfl

/-! ### redraw -/

@[simp] theorem State.redraw_memory (g : Frame) : (s.redraw g).memory = s.memory := rfl
@[simp] theorem State.redraw_V (g : Frame) : (s.redraw g).V = s.V := rfl
@[simp] theorem State.redraw_I (g : Frame) : (s.redraw g).I = s.I := rfl
@[simp] theorem State.redraw_pc (g : Frame) : (s.redraw g).pc = s.pc := rfl
@[simp] theorem State.redraw_stack (g : Frame) : (s.redraw g).stack = s.stack := rfl
@[simp] theorem State.redraw_sp (g : Frame) : (s.redraw g).sp = s.sp := rfl
@[simp] theorem State.redraw_delayTimer (g : Frame) : (s.redraw g).delayTimer = s.delayTimer := rfl
@[simp] theorem State.redraw_soundTimer (g : Frame) : (s.redraw g).soundTimer = s.soundTimer := rfl
@[simp] theorem State.redraw_gfx (g : Frame) : (s.redraw g).gfx = g := rfl
@[simp] theorem State.redraw_key (g : Frame) : (s.redraw g).key = s.key := rfl
@[simp] theorem State.redraw_drawFlag (g : Frame) : (s.redraw g).drawFlag = true := rfl
@[simp] theorem State.redraw_incrementI (g : Frame) : (s.redraw g).incrementI = s.incrementI := rfl
@[simp] theorem State.redraw_cond (g : Frame) : (s.redraw g).cond = s.cond := rfl
@[simp] theorem State.redraw_loadResult (g : Frame) : (s.redraw g).loadResult = s.loadResult := rfl
@[simp] theorem State.redraw_faultMark (g : Frame) : (s.redraw g).faultMark = s.faultMark := rfl
@[simp] theorem State.redraw_draws (g : Frame) : (s.redraw g).draws = s.draws := rfl
@[simp] theorem State.redraw_schedule (g : Frame) : (s.redraw g).schedule = s.schedule := rfl
@[simp] theorem State.redraw_afterwards (g : Frame) : (s.redraw g).afterwards = s.afterwards := rfl
@[simp] theorem State.redraw_reg (g : Frame) (r : Reg) : (s.redraw g).reg r = s.reg r := rfl
@[simp] theorem State.redraw_read (g : Frame) (i : Nat) : (s.redraw g).read i = s.read i := rfl

/-! ### setPc -/

@[simp] theorem State.setPc_memory (a : Word) : (s.setPc a).memory = s.memory := rfl
@[simp] theorem State.setPc_V (a : Word) : (s.setPc a).V = s.V := rfl
@[simp] theorem State.setPc_I (a : Word) : (s.setPc a).I = s.I := rfl
@[simp] theorem State.setPc_pc (a : Word) : (s.setPc a).pc = a := rfl
@[simp] theorem State.setPc_stack (a : Word) : (s.setPc a).stack = s.stack := rfl
@[simp] theorem State.setPc_sp (a : Word) : (s.setPc a).sp = s.sp := rfl
@[simp] theorem State.setPc_delayTimer (a : Word) : (s.setPc a).delayTimer = s.delayTimer := rfl
@[simp] theorem State.setPc_soundTimer (a : Word) : (s.setPc a).soundTimer = s.soundTimer := rfl
@[simp] theorem State.setPc_gfx (a : Word) : (s.setPc a).gfx = s.gfx := rfl
@[simp] theorem State.setPc_key (a : Word) : (s.setPc a).key = s.key := rfl
@[simp] theorem State.setPc_drawFlag (a : Word) : (s.setPc a).drawFlag = s.drawFlag := rfl
@[simp] theorem State.setPc_incrementI (a : Word) : (s.setPc a).incrementI = s.incrementI := rfl
@[simp] theorem State.setPc_cond (a : Word) : (s.setPc a).cond = s.cond := rfl
@[simp] theorem State.setPc_loadResult (a : Word) : (s.setPc a).loadResult = s.loadResult := rfl
@[simp] theorem State.setPc_faultMark (a : Word) : (s.setPc a).faultMark = s.faultMark := rfl
@[simp] theorem State.setPc_draws (a : Word) : (s.setPc a).draws = s.draws := rfl
@[simp] theorem State.setPc_schedule (a : Word) : (s.setPc a).schedule = s.schedule := rfl
@[simp] theorem State.setPc_afterwards (a : Word) : (s.setPc a).afterwards = s.afterwards := rfl
@[simp] theorem State.setPc_reg (a : Word) (r : Reg) : (s.setPc a).reg r = s.reg r := rfl
@[simp] theorem State.setPc_read (a : Word) (i : Nat) : (s.setPc a).read i = s.read i := rfl

/-! ### advance -/

@[simp] theorem State.advance_memory : (s.advance).memory = s.memory := rfl
@[simp] theorem State.advance_V : (s.advance).V = s.V := rfl
@[simp] theorem State.advance_I : (s.advance).I = s.I := rfl
@[simp] theorem State.advance_pc : (s.advance).pc = s.pc + 2 := rfl
@[simp] theorem State.advance_stack : (s.advance).stack = s.stack := rfl
@[simp] theorem State.advance_sp : (s.advance).sp = s.sp := rfl
@[simp] theorem State.advance_delayTimer : (s.advance).delayTimer = s.delayTimer := rfl
@[simp] theorem State.advance_soundTimer : (s.advance).soundTimer = s.soundTimer := rfl
@[simp] theorem State.advance_gfx : (s.advance).gfx = s.gfx := rfl
@[simp] theorem State.advance_key : (s.advance).key = s.key := rfl
@[simp] theorem State.advance_drawFlag : (s.advance).drawFlag = s.drawFlag := rfl
@[simp] theorem State.advance_incrementI : (s.advance).incrementI = s.incrementI := rfl
@[simp] theorem State.advance_cond : (s.advance).cond = s.cond := rfl
@[simp] theorem State.advance_loadResult : (s.advance).loadResult = s.loadResult := rfl
@[simp] theorem State.advance_faultMark : (s.advance).faultMark = s.faultMark := rfl
@[simp] theorem State.advance_draws : (s.advance).draws = s.draws := rfl
@[simp] theorem State.advance_schedule : (s.advance).schedule = s.schedule := rfl
@[simp] theorem State.advance_afterwards : (s.advance).afterwards = s.afterwards := rfl
@[simp] theorem State.advance_reg (r : Reg) : (s.advance).reg r = s.reg r := rfl
@[simp] theorem State.advance_read (i : Nat) : (s.advance).read i = s.read i := rfl

/-! ### skipIf -/

@[simp] theorem State.skipIf_memory (c : Bool) : (s.skipIf c).memory = s.memory := rfl
@[simp] theorem State.skipIf_V (c : Bool) : (s.skipIf c).V = s.V := rfl
@[simp] theorem State.skipIf_I (c : Bool) : (s.skipIf c).I = s.I := rfl
@[simp] theorem State.skipIf_pc (c : Bool) : (s.skipIf c).pc = if c then s.pc + 4 else s.pc + 2 := rfl
@[simp] theorem State.skipIf_stack (c : Bool) : (s.skipIf c).stack = s.stack := rfl
@[simp] theorem State.skipIf_sp (c : Bool) : (s.skipIf c).sp = s.sp := rfl
@[simp] theorem State.skipIf_delayTimer (c : Bool) : (s.skipIf c).delayTimer = s.delayTimer := rfl
@[simp] theorem State.skipIf_soundTimer (c : Bool) : (s.skipIf c).soundTimer = s.soundTimer := rfl
@[simp] theorem State.skipIf_gfx (c : Bool) : (s.skipIf c).gfx = s.gfx := rfl
@[simp] theorem State.skipIf_key (c : Bool) : (s.skipIf c).key = s.key := rfl
@[simp] theorem State.skipIf_drawFlag (c : Bool) : (s.skipIf c).drawFlag = s.drawFlag := rfl
@[simp] theorem State.skipIf_incrementI (c : Bool) : (s.skipIf c).incrementI = s.incrementI := rfl
@[simp] theorem State.skipIf_cond (c : Bool) : (s.skipIf c).cond = s.cond := rfl
@[simp] theorem State.skipIf_loadResult (c : Bool) : (s.skipIf c).loadResult = s.loadResult := rfl
@[simp] theorem State.skipIf_faultMark (c : Bool) : (s.skipIf c).faultMark = s.faultMark := rfl
@[simp] theorem State.skipIf_draws (c : Bool) : (s.skipIf c).draws = s.draws := rfl
@[simp] theorem State.skipIf_schedule (c : Bool) : (s.skipIf c).schedule = s.schedule := rfl
@[simp] theorem State.skipIf_afterwards (c : Bool) : (s.skipIf c).afterwards = s.afterwards := rfl
@[simp] theorem State.skipIf_reg (c : Bool) (r : Reg) : (s.skipIf c).reg r = s.reg r := rfl
@[simp] theorem State.skipIf_read (c : Bool) (i : Nat) : (s.skipIf c).read i = s.read i := rfl

/-! ### writeBlock -/

@[simp] theorem State.writeBlock_memory (b : Nat) (vs : List Byte) : (s.writeBlock b vs).memory = s.memory.writeBlock b vs := rfl
@[simp] theorem State.writeBlock_V (b : Nat) (vs : List Byte) : (s.writeBlock b vs).V = s.V := rfl
@[simp] theorem State.writeBlock_I (b : Nat) (vs : List Byte) : (s.writeBlock b vs).I = s.I := rfl
@[simp] theorem State.writeBlock_pc (b : Nat) (vs : List Byte) : (s.writeBlock b vs).pc = s.pc := rfl
@[simp] theorem State.writeBlock_stack (b : Nat) (vs : List Byte) : (s.writeBlock b vs).stack = s.stack := rfl
@[simp] theorem State.writeBlock_sp (b : Nat) (vs : List Byte) : (s.writeBlock b vs).sp = s.sp := rfl
@[simp] theorem State.writeBlock_delayTimer (b : Nat) (vs : List Byte) : (s.writeBlock b vs).delayTimer = s.delayTimer := rfl
@[simp] theorem State.writeBlock_soundTimer (b : Nat) (vs : List Byte) : (s.writeBlock b vs).soundTimer = s.soundTimer := rfl
@[simp] theorem State.writeBlock_gfx (b : Nat) (vs : List Byte) : (s.writeBlock b vs).gfx = s.gfx := rfl
@[simp] theorem State.writeBlock_key (b : Nat) (vs : List Byte) : (s.writeBlock b vs).key = s.key := rfl
@[simp] theorem State.writeBlock_drawFlag (b : Nat) (vs : List Byte) : (s.writeBlock b vs).drawFlag = s.drawFlag := rfl
@[simp] theorem State.writeBlock_incrementI (b : Nat) (vs : List Byte) : (s.writeBlock b vs).incrementI = s.incrementI := rfl
@[simp] theorem State.writeBlock_cond (b : Nat) (vs : List Byte) : (s.writeBlock b vs).cond = s.cond := rfl
@[simp] theorem State.writeBlock_loadResult (b : Nat) (vs : List Byte) : (s.writeBlock b vs).loadResult = s.loadResult := rfl
@[simp] theorem State.writeBlock_faultMark (b : Nat) (vs : List Byte) : (s.writeBlock b vs).faultMark = s.faultMark := rfl
@[simp] theorem State.writeBlock_draws (b : Nat) (vs : List Byte) : (s.writeBlock b vs).draws = s.draws := rfl
@[simp] theorem State.writeBlock_schedule (b : Nat) (vs : List Byte) : (s.writeBlock b vs).schedule = s.schedule := rfl
@[simp] theorem State.writeBlock_afterwards (b : Nat) (vs : List Byte) : (s.writeBlock b vs).afterwards = s.afterwards := rfl
@[simp] theorem State.writeBlock_reg (b : Nat) (vs : List Byte) (r : Reg) : (s.writeBlock b vs).reg r = s.reg r := rfl

/-! ### push -/

@[simp] theorem State.push_memory (a : Word) (h : s.sp.val < 16) : (s.push a h).memory = s.memory := rfl
@[simp] theorem State.push_V (a : Word) (h : s.sp.val < 16) : (s.push a h).V = s.V := rfl
@[simp] theorem State.push_I (a : Word) (h : s.sp.val < 16) : (s.push a h).I = s.I := rfl
@[simp] theorem State.push_pc (a : Word) (h : s.sp.val < 16) : (s.push a h).pc = s.pc := rfl
@[simp] theorem State.push_stack (a : Word) (h : s.sp.val < 16) : (s.push a h).stack = s.stack.set s.sp.val a := rfl
@[simp] theorem State.push_sp (a : Word) (h : s.sp.val < 16) : (s.push a h).sp = ⟨s.sp.val + 1, by omega⟩ := rfl
@[simp] theorem State.push_delayTimer (a : Word) (h : s.sp.val < 16) : (s.push a h).delayTimer = s.delayTimer := rfl
@[simp] theorem State.push_soundTimer (a : Word) (h : s.sp.val < 16) : (s.push a h).soundTimer = s.soundTimer := rfl
@[simp] theorem State.push_gfx (a : Word) (h : s.sp.val < 16) : (s.push a h).gfx = s.gfx := rfl
@[simp] theorem State.push_key (a : Word) (h : s.sp.val < 16) : (s.push a h).key = s.key := rfl
@[simp] theorem State.push_drawFlag (a : Word) (h : s.sp.val < 16) : (s.push a h).drawFlag = s.drawFlag := rfl
@[simp] theorem State.push_incrementI (a : Word) (h : s.sp.val < 16) : (s.push a h).incrementI = s.incrementI := rfl
@[simp] theorem State.push_cond (a : Word) (h : s.sp.val < 16) : (s.push a h).cond = s.cond := rfl
@[simp] theorem State.push_loadResult (a : Word) (h : s.sp.val < 16) : (s.push a h).loadResult = s.loadResult := rfl
@[simp] theorem State.push_faultMark (a : Word) (h : s.sp.val < 16) : (s.push a h).faultMark = s.faultMark := rfl
@[simp] theorem State.push_draws (a : Word) (h : s.sp.val < 16) : (s.push a h).draws = s.draws := rfl
@[simp] theorem State.push_schedule (a : Word) (h : s.sp.val < 16) : (s.push a h).schedule = s.schedule := rfl
@[simp] theorem State.push_afterwards (a : Word) (h : s.sp.val < 16) : (s.push a h).afterwards = s.afterwards := rfl
@[simp] theorem State.push_reg (a : Word) (h : s.sp.val < 16) (r : Reg) : (s.push a h).reg r = s.reg r := rfl
@[simp] theorem State.push_read (a : Word) (h : s.sp.val < 16) (i : Nat) : (s.push a h).read i = s.read i := rfl

/-! ### pop -/

@[simp] theorem State.pop_memory : (s.pop).memory = s.memory := rfl
@[simp] theorem State.pop_V : (s.pop).V = s.V := rfl
@[simp] theorem State.pop_I : (s.pop).I = s.I := rfl
@[simp] theorem State.pop_pc : (s.pop).pc = s.pc := rfl
@[simp] theorem State.pop_stack : (s.pop).stack = s.stack := rfl
@[simp] theorem State.pop_sp : (s.pop).sp = ⟨s.sp.val - 1, by omega⟩ := rfl
@[simp] theorem State.pop_delayTimer : (s.pop).delayTimer = s.delayTimer := rfl
@[simp] theorem State.pop_soundTimer : (s.pop).soundTimer = s.soundTimer := rfl
@[simp] theorem State.pop_gfx : (s.pop).gfx = s.gfx := rfl
@[simp] theorem State.pop_key : (s.pop).key = s.key := rfl
@[simp] theorem State.pop_drawFlag : (s.pop).drawFlag = s.drawFlag := rfl
@[simp] theorem State.pop_incrementI : (s.pop).incrementI = s.incrementI := rfl
@[simp] theorem State.pop_cond : (s.pop).cond = s.cond := rfl
@[simp] theorem State.pop_loadResult : (s.pop).loadResult = s.loadResult := rfl
@[simp] theorem State.pop_faultMark : (s.pop).faultMark = s.faultMark := rfl
@[simp] theorem State.pop_draws : (s.pop).draws = s.draws := rfl
@[simp] theorem State.pop_schedule : (s.pop).schedule = s.schedule := rfl
@[simp] theorem State.pop_afterwards : (s.pop).afterwards = s.afterwards := rfl
@[simp] theorem State.pop_reg (r : Reg) : (s.pop).reg r = s.reg r := rfl
@[simp] theorem State.pop_read (i : Nat) : (s.pop).read i = s.read i := rfl

/-! ### drawn -/

@[simp] theorem State.drawn_memory : (s.drawn).memory = s.memory := rfl
@[simp] theorem State.drawn_V : (s.drawn).V = s.V := rfl
@[simp] theorem State.drawn_I : (s.drawn).I = s.I := rfl
@[simp] theorem State.drawn_pc : (s.drawn).pc = s.pc := rfl
@[simp] theorem State.drawn_stack : (s.drawn).stack = s.stack := rfl
@[simp] theorem State.drawn_sp : (s.drawn).sp = s.sp := rfl
@[simp] theorem State.drawn_delayTimer : (s.drawn).delayTimer = s.delayTimer := rfl
@[simp] theorem State.drawn_soundTimer : (s.drawn).soundTimer = s.soundTimer := rfl
@[simp] theorem State.drawn_gfx : (s.drawn).gfx = s.gfx := rfl
@[simp] theorem State.drawn_key : (s.drawn).key = s.key := rfl
@[simp] theorem State.drawn_drawFlag : (s.drawn).drawFlag = s.drawFlag := rfl
@[simp] theorem State.drawn_incrementI : (s.drawn).incrementI = s.incrementI := rfl
@[simp] theorem State.drawn_cond : (s.drawn).cond = s.cond := rfl
@[simp] theorem State.drawn_loadResult : (s.drawn).loadResult = s.loadResult := rfl
@[simp] theorem State.drawn_faultMark : (s.drawn).faultMark = s.faultMark := rfl
@[simp] theorem State.drawn_draws : (s.drawn).draws = s.draws + 1 := rfl
@[simp] theorem State.drawn_schedule : (s.drawn).schedule = s.schedule := rfl
@[simp] theorem State.drawn_afterwards : (s.drawn).afterwards = s.afterwards := rfl
@[simp] theorem State.drawn_reg (r : Reg) : (s.drawn).reg r = s.reg r := rfl
@[simp] theorem State.drawn_read (i : Nat) : (s.drawn).read i = s.read i := rfl

/-! ### raise -/

@[simp] theorem State.raise_memory (c : Condition) : (s.raise c).memory = s.memory := rfl
@[simp] theorem State.raise_V (c : Condition) : (s.raise c).V = s.V := rfl
@[simp] theorem State.raise_I (c : Condition) : (s.raise c).I = s.I := rfl
@[simp] theorem State.raise_pc (c : Condition) : (s.raise c).pc = s.pc := rfl
@[simp] theorem State.raise_stack (c : Condition) : (s.raise c).stack = s.stack := rfl
@[simp] theorem State.raise_sp (c : Condition) : (s.raise c).sp = s.sp := rfl
@[simp] theorem State.raise_delayTimer (c : Condition) : (s.raise c).delayTimer = s.delayTimer := rfl
@[simp] theorem State.raise_soundTimer (c : Condition) : (s.raise c).soundTimer = s.soundTimer := rfl
@[simp] theorem State.raise_gfx (c : Condition) : (s.raise c).gfx = s.gfx := rfl
@[simp] theorem State.raise_key (c : Condition) : (s.raise c).key = s.key := rfl
@[simp] theorem State.raise_drawFlag (c : Condition) : (s.raise c).drawFlag = s.drawFlag := rfl
@[simp] theorem State.raise_incrementI (c : Condition) : (s.raise c).incrementI = s.incrementI := rfl
@[simp] theorem State.raise_cond (c : Condition) : (s.raise c).cond = some c := rfl
@[simp] theorem State.raise_loadResult (c : Condition) : (s.raise c).loadResult = s.loadResult := rfl
@[simp] theorem State.raise_faultMark (c : Condition) : (s.raise c).faultMark = s.faultMark.or (some c) := rfl
@[simp] theorem State.raise_draws (c : Condition) : (s.raise c).draws = s.draws := rfl
@[simp] theorem State.raise_schedule (c : Condition) : (s.raise c).schedule = s.schedule := rfl
@[simp] theorem State.raise_afterwards (c : Condition) : (s.raise c).afterwards = s.afterwards := rfl
@[simp] theorem State.raise_reg (c : Condition) (r : Reg) : (s.raise c).reg r = s.reg r := rfl
@[simp] theorem State.raise_read (c : Condition) (i : Nat) : (s.raise c).read i = s.read i := rfl

/-! ### beginStep -/

@[simp] theorem State.beginStep_memory : (s.beginStep).memory = s.memory := rfl
@[simp] theorem State.beginStep_V : (s.beginStep).V = s.V := rfl
@[simp] theorem State.beginStep_I : (s.beginStep).I = s.I := rfl
@[simp] theorem State.beginStep_pc : (s.beginStep).pc = s.pc := rfl
@[simp] theorem State.beginStep_stack : (s.beginStep).stack = s.stack := rfl
@[simp] theorem State.beginStep_sp : (s.beginStep).sp = s.sp := rfl
@[simp] theorem State.beginStep_delayTimer : (s.beginStep).delayTimer = s.delayTimer := rfl
@[simp] theorem State.beginStep_soundTimer : (s.beginStep).soundTimer = s.soundTimer := rfl
@[simp] theorem State.beginStep_gfx : (s.beginStep).gfx = s.gfx := rfl
@[simp] theorem State.beginStep_key : (s.beginStep).key = s.key := rfl
@[simp] theorem State.beginStep_drawFlag : (s.beginStep).drawFlag = s.drawFlag := rfl
@[simp] theorem State.beginStep_incrementI : (s.beginStep).incrementI = s.incrementI := rfl
@[simp] theorem State.beginStep_cond : (s.beginStep).cond = none := rfl
@[simp] theorem State.beginStep_loadResult : (s.beginStep).loadResult = s.loadResult := rfl
@[simp] theorem State.beginStep_faultMark : (s.beginStep).faultMark = s.faultMark := rfl
@[simp] theorem State.beginStep_draws : (s.beginStep).draws = s.draws := rfl
@[simp] theorem State.beginStep_schedule : (s.beginStep).schedule = s.schedule := rfl
@[simp] theorem State.beginStep_afterwards : (s.beginStep).afterwards = s.afterwards := rfl
@[simp] theorem State.beginStep_reg (r : Reg) : (s.beginStep).reg r = s.reg r := rfl
@[simp] theorem State.beginStep_read (i : Nat) : (s.beginStep).read i = s.read i := rfl

/-! ### unknownOpcode -/

@[simp] theorem State.unknownOpcode_memory (op : Word) : (s.unknownOpcode op).memory = s.memory := rfl
@[simp] theorem State.unknownOpcode_V (op : Word) : (s.unknownOpcode op).V = s.V := rfl
@[simp] theorem State.unknownOpcode_I (op : Word) : (s.unknownOpcode op).I = s.I := rfl
@[simp] theorem State.unknownOpcode_pc (op : Word) : (s.unknownOpcode op).pc = s.pc + 2 := rfl
@[simp] theorem State.unknownOpcode_stack (op : Word) : (s.unknownOpcode op).stack = s.stack := rfl
@[simp] theorem State.unknownOpcode_sp (op : Word) : (s.unknownOpcode op).sp = s.sp := rfl
@[simp] theorem State.unknownOpcode_delayTimer (op : Word) : (s.unknownOpcode op).delayTimer = s.delayTimer := rfl
@[simp] theorem State.unknownOpcode_soundTimer (op : Word) : (s.unknownOpcode op).soundTimer = s.soundTimer := rfl
@[simp] theorem State.unknownOpcode_gfx (op : Word) : (s.unknownOpcode op).gfx = s.gfx := rfl
@[simp] theorem State.unknownOpcode_key (op : Word) : (s.unknownOpcode op).key = s.key := rfl
@[simp] theorem State.unknownOpcode_drawFlag (op : Word) : (s.unknownOpcode op).drawFlag = s.drawFlag := rfl
@[simp] theorem State.unknownOpcode_incrementI (op : Word) : (s.unknownOpcode op).incrementI = s.incrementI := rfl
@[simp] theorem State.unknownOpcode_cond (op : Word) : (s.unknownOpcode op).cond = some (.unknownOpcode op s.pc) := rfl
@[simp] theorem State.unknownOpcode_loadResult (op : Word) : (s.unknownOpcode op).loadResult = s.loadResult := rfl
@[simp] theorem State.unknownOpcode_faultMark (op : Word) : (s.unknownOpcode op).faultMark = s.faultMark.or (some (.unknownOpcode op s.pc)) := rfl
@[simp] theorem State.unknownOpcode_draws (op : Word) : (s.unknownOpcode op).draws = s.draws := rfl
@[simp] theorem State.unknownOpcode_schedule (op : Word) : (s.unknownOpcode op).schedule = s.schedule := rfl
@[simp] theorem State.unknownOpcode_afterwards (op : Word) : (s.unknownOpcode op).afterwards = s.afterwards := rfl
@[simp] theorem State.unknownOpcode_reg (op : Word) (r : Reg) : (s.unknownOpcode op).reg r = s.reg r := rfl
@[simp] theorem State.unknownOpcode_read (op : Word) (i : Nat) : (s.unknownOpcode op).read i = s.read i := rfl

/-! ### writeFlagged -/

@[simp] theorem State.writeFlagged_memory (x : Reg) (f : Bool) (v : Byte) : (s.writeFlagged x f v).memory = s.memory := rfl
@[simp] theorem State.writeFlagged_V (x : Reg) (f : Bool) (v : Byte) : (s.writeFlagged x f v).V = (s.V.set 15 (flagByte f)).set x.val v := rfl
@[simp] theorem State.writeFlagged_I (x : Reg) (f : Bool) (v : Byte) : (s.writeFlagged x f v).I = s.I := rfl
@[simp] theorem State.writeFlagged_pc (x : Reg) (f : Bool) (v : Byte) : (s.writeFlagged x f v).pc = s.pc + 2 := rfl
@[simp] theorem State.writeFlagged_stack (x : Reg) (f : Bool) (v : Byte) : (s.writeFlagged x f v).stack = s.stack := rfl
@[simp] theorem State.writeFlagged_sp (x : Reg) (f : Bool) (v : Byte) : (s.writeFlagged x f v).sp = s.sp := rfl
@[simp] theorem State.writeFlagged_delayTimer (x : Reg) (f : Bool) (v : Byte) : (s.writeFlagged x f v).delayTimer = s.delayTimer := rfl
@[simp] theorem State.writeFlagged_soundTimer (x : Reg) (f : Bool) (v : Byte) : (s.writeFlagged x f v).soundTimer = s.soundTimer := rfl
@[simp] theorem State.writeFlagged_gfx (x : Reg) (f : Bool) (v : Byte) : (s.writeFlagged x f v).gfx = s.gfx := rfl
@[simp] theorem State.writeFlagged_key (x : Reg) (f : Bool) (v : Byte) : (s.writeFlagged x f v).key = s.key := rfl
@[simp] theorem State.writeFlagged_drawFlag (x : Reg) (f : Bool) (v : Byte) : (s.writeFlagged x f v).drawFlag = s.drawFlag := rfl
@[simp] theorem State.writeFlagged_incrementI (x : Reg) (f : Bool) (v : Byte) : (s.writeFlagged x f v).incrementI = s.incrementI := rfl
@[simp] theorem State.writeFlagged_cond (x : Reg) (f : Bool) (v : Byte) : (s.writeFlagged x f v).cond = s.cond := rfl
@[simp] theorem State.writeFlagged_loadResult (x : Reg) (f : Bool) (v : Byte) : (s.writeFlagged x f v).loadResult = s.loadResult := rfl
@[simp] theorem State.writeFlagged_faultMark (x : Reg) (f : Bool) (v : Byte) : (s.writeFlagged x f v).faultMark = s.faultMark := rfl
@[simp] theorem State.writeFlagged_draws (x : Reg) (f : Bool) (v : Byte) : (s.writeFlagged x f v).draws = s.draws := rfl
@[simp] theorem State.writeFlagged_schedule (x : Reg) (f : Bool) (v : Byte) : (s.writeFlagged x f v).schedule = s.schedule := rfl
@[simp] theorem State.writeFlagged_afterwards (x : Reg) (f : Bool) (v : Byte) : (s.writeFlagged x f v).afterwards = s.afterwards := rfl
@[simp] theorem State.writeFlagged_read (x : Reg) (f : Bool) (v : Byte) (i : Nat) : (s.writeFlagged x f v).read i = s.read i := rfl

/-! ### maskedDraw -/

@[simp] theorem State.maskedDraw_memory (x : Reg) (nn rand : Byte) : (s.maskedDraw x nn rand).memory = s.memory := rfl
@[simp] theorem State.maskedDraw_V (x : Reg) (nn rand : Byte) : (s.maskedDraw x nn rand).V = s.V.set x.val (rand &&& nn) := rfl
@[simp] theorem State.maskedDraw_I (x : Reg) (nn rand : Byte) : (s.maskedDraw x nn rand).I = s.I := rfl
@[simp] theorem State.maskedDraw_pc (x : Reg) (nn rand : Byte) : (s.maskedDraw x nn rand).pc = s.pc + 2 := rfl
@[simp] theorem State.maskedDraw_stack (x : Reg) (nn rand : Byte) : (s.maskedDraw x nn rand).stack = s.stack := rfl
@[simp] theorem State.maskedDraw_sp (x : Reg) (nn rand : Byte) : (s.maskedDraw x nn rand).sp = s.sp := rfl
@[simp] theorem State.maskedDraw_delayTimer (x : Reg) (nn rand : Byte) : (s.maskedDraw x nn rand).delayTimer = s.delayTimer := rfl
@[simp] theorem State.maskedDraw_soundTimer (x : Reg) (nn rand : Byte) : (s.maskedDraw x nn rand).soundTimer = s.soundTimer := rfl
@[simp] theorem State.maskedDraw_gfx (x : Reg) (nn rand : Byte) : (s.maskedDraw x nn rand).gfx = s.gfx := rfl
@[simp] theorem State.maskedDraw_key (x : Reg) (nn rand : Byte) : (s.maskedDraw x nn rand).key = s.key := rfl
@[simp] theorem State.maskedDraw_drawFlag (x : Reg) (nn rand : Byte) : (s.maskedDraw x nn rand).drawFlag = s.drawFlag := rfl
@[simp] theorem State.maskedDraw_incrementI (x : Reg) (nn rand : Byte) : (s.maskedDraw x nn rand).incrementI = s.incrementI := rfl
@[simp] theorem State.maskedDraw_cond (x : Reg) (nn rand : Byte) : (s.maskedDraw x nn rand).cond = s.cond := rfl
@[simp] theorem State.maskedDraw_loadResult (x : Reg) (nn rand : Byte) : (s.maskedDraw x nn rand).loadResult = s.loadResult := rfl
@[simp] theorem State.maskedDraw_faultMark (x : Reg) (nn rand : Byte) : (s.maskedDraw x nn rand).faultMark = s.faultMark := rfl
@[simp] theorem State.maskedDraw_draws (x : Reg) (nn rand : Byte) : (s.maskedDraw x nn rand).draws = s.draws := rfl
@[simp] theorem State.maskedDraw_schedule (x : Reg) (nn rand : Byte) : (s.maskedDraw x nn rand).schedule = s.schedule := rfl
@[simp] theorem State.maskedDraw_afterwards (x : Reg) (nn rand : Byte) : (s.maskedDraw x nn rand).afterwards = s.afterwards := rfl
@[simp] theorem State.maskedDraw_read (x : Reg) (nn rand : Byte) (i : Nat) : (s.maskedDraw x nn rand).read i = s.read i := rfl

/-! ### takeEvent -/

@[simp] theorem State.takeEvent_memory : (s.takeEvent).memory = s.memory := rfl
@[simp] theorem State.takeEvent_V : (s.takeEvent).V = s.V := rfl
@[simp] theorem State.takeEvent_I : (s.takeEvent).I = s.I := rfl
@[simp] theorem State.takeEvent_pc : (s.takeEvent).pc = s.pc := rfl
@[simp] theorem State.takeEvent_stack : (s.takeEvent).stack = s.stack := rfl
@[simp] theorem State.takeEvent_sp : (s.takeEvent).sp = s.sp := rfl
@[simp] theorem State.takeEvent_delayTimer : (s.takeEvent).delayTimer = s.delayTimer := rfl
@[simp] theorem State.takeEvent_soundTimer : (s.takeEvent).soundTimer = s.soundTimer := rfl
@[simp] theorem State.takeEvent_gfx : (s.takeEvent).gfx = s.gfx := rfl
@[simp] theorem State.takeEvent_key : (s.takeEvent).key = s.key := rfl
@[simp] theorem State.takeEvent_drawFlag : (s.takeEvent).drawFlag = s.drawFlag := rfl
@[simp] theorem State.takeEvent_incrementI : (s.takeEvent).incrementI = s.incrementI := rfl
@[simp] theorem State.takeEvent_cond : (s.takeEvent).cond = s.cond := rfl
@[simp] theorem State.takeEvent_loadResult : (s.takeEvent).loadResult = s.loadResult := rfl
@[simp] theorem State.takeEvent_faultMark : (s.takeEvent).faultMark = s.faultMark := rfl
@[simp] theorem State.takeEvent_draws : (s.takeEvent).draws = s.draws := rfl
@[simp] theorem State.takeEvent_schedule : (s.takeEvent).schedule = s.schedule.tail := rfl
@[simp] theorem State.takeEvent_afterwards : (s.takeEvent).afterwards = if s.schedule.isEmpty then s.afterwards.later else s.afterwards := rfl
@[simp] theorem State.takeEvent_reg (r : Reg) : (s.takeEvent).reg r = s.reg r := rfl
@[simp] theorem State.takeEvent_read (i : Nat) : (s.takeEvent).read i = s.read i := rfl

/-! ### hostKeyWrite -/

@[simp] theorem State.hostKeyWrite_memory (k : BitVec 16) : (s.hostKeyWrite k).memory = s.memory := rfl
@[simp] theorem State.hostKeyWrite_V (k : BitVec 16) : (s.hostKeyWrite k).V = s.V := rfl
@[simp] theorem State.hostKeyWrite_I (k : BitVec 16) : (s.hostKeyWrite k).I = s.I := rfl
@[simp] theorem State.hostKeyWrite_pc (k : BitVec 16) : (s.hostKeyWrite k).pc = s.pc := rfl
@[simp] theorem State.hostKeyWrite_stack (k : BitVec 16) : (s.hostKeyWrite k).stack = s.stack := rfl
@[simp] theorem State.hostKeyWrite_sp (k : BitVec 16) : (s.hostKeyWrite k).sp = s.sp := rfl
@[simp] theorem State.hostKeyWrite_delayTimer (k : BitVec 16) : (s.hostKeyWrite k).delayTimer = s.delayTimer := rfl
@[simp] theorem State.hostKeyWrite_soundTimer (k : BitVec 16) : (s.hostKeyWrite k).soundTimer = s.soundTimer := rfl
@[simp] theorem State.hostKeyWrite_gfx (k : BitVec 16) : (s.hostKeyWrite k).gfx = s.gfx := rfl
@[simp] theorem State.hostKeyWrite_key (k : BitVec 16) : (s.hostKeyWrite k).key = k := rfl
@[simp] theorem State.hostKeyWrite_drawFlag (k : BitVec 16) : (s.hostKeyWrite k).drawFlag = s.drawFlag := rfl
@[simp] theorem State.hostKeyWrite_incrementI (k : BitVec 16) : (s.hostKeyWrite k).incrementI = s.incrementI := rfl
@[simp] theorem State.hostKeyWrite_cond (k : BitVec 16) : (s.hostKeyWrite k).cond = s.cond := rfl
@[simp] theorem State.hostKeyWrite_loadResult (k : BitVec 16) : (s.hostKeyWrite k).loadResult = s.loadResult := rfl
@[simp] theorem State.hostKeyWrite_faultMark (k : BitVec 16) : (s.hostKeyWrite k).faultMark = s.faultMark := rfl
@[simp] theorem State.hostKeyWrite_draws (k : BitVec 16) : (s.hostKeyWrite k).draws = s.draws := rfl
@[simp] theorem State.hostKeyWrite_schedule (k : BitVec 16) : (s.hostKeyWrite k).schedule = s.schedule := rfl
@[simp] theorem State.hostKeyWrite_afterwards (k : BitVec 16) : (s.hostKeyWrite k).afterwards = s.afterwards := rfl
@[simp] theorem State.hostKeyWrite_reg (k : BitVec 16) (r : Reg) : (s.hostKeyWrite k).reg r = s.reg r := rfl
@[simp] theorem State.hostKeyWrite_read (k : BitVec 16) (i : Nat) : (s.hostKeyWrite k).read i = s.read i := rfl

/-! ### hostTick -/

@[simp] theorem State.hostTick_memory : (s.hostTick).memory = s.memory := rfl
@[simp] theorem State.hostTick_V : (s.hostTick).V = s.V := rfl
@[simp] theorem State.hostTick_I : (s.hostTick).I = s.I := rfl
@[simp] theorem State.hostTick_pc : (s.hostTick).pc = s.pc := rfl
@[simp] theorem State.hostTick_stack : (s.hostTick).stack = s.stack := rfl
@[simp] theorem State.hostTick_sp : (s.hostTick).sp = s.sp := rfl
@[simp] theorem State.hostTick_delayTimer : (s.hostTick).delayTimer = countDown s.delayTimer := rfl
@[simp] theorem State.hostTick_soundTimer : (s.hostTick).soundTimer = countDown s.soundTimer := rfl
@[simp] theorem State.hostTick_gfx : (s.hostTick).gfx = s.gfx := rfl
@[simp] theorem State.hostTick_key : (s.hostTick).key = s.key := rfl
@[simp] theorem State.hostTick_drawFlag : (s.hostTick).drawFlag = s.drawFlag := rfl
@[simp] theorem State.hostTick_incrementI : (s.hostTick).incrementI = s.incrementI := rfl
@[simp] theorem State.hostTick_cond : (s.hostTick).cond = s.cond := rfl
@[simp] theorem State.hostTick_loadResult : (s.hostTick).loadResult = s.loadResult := rfl
@[simp] theorem State.hostTick_faultMark : (s.hostTick).faultMark = s.faultMark := rfl
@[simp] theorem State.hostTick_draws : (s.hostTick).draws = s.draws := rfl
@[simp] theorem State.hostTick_schedule : (s.hostTick).schedule = s.schedule := rfl
@[simp] theorem State.hostTick_afterwards : (s.hostTick).afterwards = s.afterwards := rfl
@[simp] theorem State.hostTick_reg (r : Reg) : (s.hostTick).reg r = s.reg r := rfl
@[simp] theorem State.hostTick_read (i : Nat) : (s.hostTick).read i = s.read i := rfl

/-! ### hostDrawAck -/

@[simp] theorem State.hostDrawAck_memory : (s.hostDrawAck).memory = s.memory := rfl
@[simp] theorem State.hostDrawAck_V : (s.hostDrawAck).V = s.V := rfl
@[simp] theorem State.hostDrawAck_I : (s.hostDrawAck).I = s.I := rfl
@[simp] theorem State.hostDrawAck_pc : (s.hostDrawAck).pc = s.pc := rfl
@[simp] theorem State.hostDrawAck_stack : (s.hostDrawAck).stack = s.stack := rfl
@[simp] theorem State.hostDrawAck_sp : (s.hostDrawAck).sp = s.sp := rfl
@[simp] theorem State.hostDrawAck_delayTimer : (s.hostDrawAck).delayTimer = s.delayTimer := rfl
@[simp] theorem State.hostDrawAck_soundTimer : (s.hostDrawAck).soundTimer = s.soundTimer := rfl
@[simp] theorem State.hostDrawAck_gfx : (s.hostDrawAck).gfx = s.gfx := rfl
@[simp] theorem State.hostDrawAck_key : (s.hostDrawAck).key = s.key := rfl
@[simp] theorem State.hostDrawAck_drawFlag : (s.hostDrawAck).drawFlag = false := rfl
@[simp] theorem State.hostDrawAck_incrementI : (s.hostDrawAck).incrementI = s.incrementI := rfl
@[simp] theorem State.hostDrawAck_cond : (s.hostDrawAck).cond = s.cond := rfl
@[simp] theorem State.hostDrawAck_loadResult : (s.hostDrawAck).loadResult = s.loadResult := rfl
@[simp] theorem State.hostDrawAck_faultMark : (s.hostDrawAck).faultMark = s.faultMark := rfl
@[simp] theorem State.hostDrawAck_draws : (s.hostDrawAck).draws = s.draws := rfl
@[simp] theorem State.hostDrawAck_schedule : (s.hostDrawAck).schedule = s.schedule := rfl
@[simp] theorem State.hostDrawAck_afterwards : (s.hostDrawAck).afterwards = s.afterwards := rfl
@[simp] theorem State.hostDrawAck_reg (r : Reg) : (s.hostDrawAck).reg r = s.reg r := rfl
@[simp] theorem State.hostDrawAck_read (i : Nat) : (s.hostDrawAck).read i = s.read i := rfl

/-! ### hostLoad: memory and the result alone change -/

@[simp] theorem State.hostLoad_V (image : List Byte) : (s.hostLoad image).V = s.V := by unfold State.hostLoad; split <;> rfl
@[simp] theorem State.hostLoad_I (image : List Byte) : (s.hostLoad image).I = s.I := by unfold State.hostLoad; split <;> rfl
@[simp] theorem State.hostLoad_pc (image : List Byte) : (s.hostLoad image).pc = s.pc := by unfold State.hostLoad; split <;> rfl
@[simp] theorem State.hostLoad_stack (image : List Byte) : (s.hostLoad image).stack = s.stack := by unfold State.hostLoad; split <;> rfl
@[simp] theorem State.hostLoad_sp (image : List Byte) : (s.hostLoad image).sp = s.sp := by unfold State.hostLoad; split <;> rfl
@[simp] theorem State.hostLoad_delayTimer (image : List Byte) : (s.hostLoad image).delayTimer = s.delayTimer := by unfold State.hostLoad; split <;> rfl
@[simp] theorem State.hostLoad_soundTimer (image : List Byte) : (s.hostLoad image).soundTimer = s.soundTimer := by unfold State.hostLoad; split <;> rfl
@[simp] theorem State.hostLoad_gfx (image : List Byte) : (s.hostLoad image).gfx = s.gfx := by unfold State.hostLoad; split <;> rfl
@[simp] theorem State.hostLoad_key (image : List Byte) : (s.hostLoad image).key = s.key := by unfold State.hostLoad; split <;> rfl
@[simp] theorem State.hostLoad_drawFlag (image : List Byte) : (s.hostLoad image).drawFlag = s.drawFlag := by unfold State.hostLoad; split <;> rfl
@[simp] theorem State.hostLoad_incrementI (image : List Byte) : (s.hostLoad image).incrementI = s.incrementI := by unfold State.hostLoad; split <;> rfl
@[simp] theorem State.hostLoad_cond (image : List Byte) : (s.hostLoad image).cond = s.cond := by unfold State.hostLoad; split <;> rfl
@[simp] theorem State.hostLoad_faultMark (image : List Byte) : (s.hostLoad image).faultMark = s.faultMark := by unfold State.hostLoad; split <;> rfl
@[simp] theorem State.hostLoad_draws (image : List Byte) : (s.hostLoad image).draws = s.draws := by unfold State.hostLoad; split <;> rfl
@[simp] theorem State.hostLoad_schedule (image : List Byte) : (s.hostLoad image).schedule = s.schedule := by unfold State.hostLoad; split <;> rfl
@[simp] theorem State.hostLoad_afterwards (image : List Byte) : (s.hostLoad image).afterwards = s.afterwards := by unfold State.hostLoad; split <;> rfl

/-! ### Reading a register after a register write -/

theorem State.reg_setReg (x r : Reg) (v : Byte) : (s.setReg x v).reg r = if r = x then v else s.reg r := by
  simp only [State.reg, State.setReg, Fin.getElem_fin, Vector.getElem_set, Fin.ext_iff, eq_comm]

@[simp] theorem State.reg_setReg_self (x : Reg) (v : Byte) : (s.setReg x v).reg x = v := by
  simp [State.reg_setReg]

@[simp] theorem State.reg_setReg_ne {x r : Reg} (v : Byte) (h : r ≠ x) : (s.setReg x v).reg r = s.reg r := by
  simp [State.reg_setReg, h]

theorem State.reg_setVF (r : Reg) (v : Byte) : (s.setVF v).reg r = if r = 15 then v else s.reg r :=
  s.reg_setReg 15 r v

@[simp] theorem State.reg_setRegs (v : RegFile) (r : Reg) : (s.setRegs v).reg r = v[r] := rfl

/-- R129, said once: the result stands in `V[x]`, the flag in `VF` unless `x` is 15, every other register is as it was. -/
theorem State.reg_writeFlagged (x r : Reg) (f : Bool) (v : Byte) :
    (s.writeFlagged x f v).reg r = if r = x then v else if r = 15 then flagByte f else s.reg r := by
  simp [State.writeFlagged, State.reg_setReg, State.reg_setVF]

theorem State.reg_maskedDraw (x r : Reg) (nn rand : Byte) :
    (s.maskedDraw x nn rand).reg r = if r = x then rand &&& nn else s.reg r := by
  simp [State.maskedDraw, State.reg_setReg]

/-- A register's byte after a register load (R172): the first `x + 1` registers take the bytes at `ea(0)`, `ea(1)`, ... -/
theorem State.loadedRegs_get (x r : Reg) :
    (s.loadedRegs x)[r] = if r ≤ x then s.read (s.ea r.val) else s.reg r := by
  simp [State.loadedRegs]

/-! ### Equal states from equal fields -/

theorem State.ext_fields {s t : State} (h1 : s.memory = t.memory) (h2 : s.V = t.V) (h3 : s.I = t.I) (h4 : s.pc = t.pc)
    (h5 : s.stack = t.stack) (h6 : s.sp = t.sp) (h7 : s.delayTimer = t.delayTimer) (h8 : s.soundTimer = t.soundTimer)
    (h9 : s.gfx = t.gfx) (h10 : s.key = t.key) (h11 : s.drawFlag = t.drawFlag) (h12 : s.incrementI = t.incrementI)
    (h13 : s.cond = t.cond) (h14 : s.loadResult = t.loadResult) (h15 : s.faultMark = t.faultMark)
    (h16 : s.draws = t.draws) (h17 : s.schedule = t.schedule) (h18 : s.afterwards = t.afterwards) : s = t := by
  cases s; cases t; simp_all

end Sys2Proof.Machine
end

