-- ==== Sys2Proof/Laws/Memory.lean ====
section
/-! SUPPORT. The memory operations, each said once: a read after a write, what a block write does, and that every operation keeps the
canonical form (20_memory.md R50, R51, R61). -/

namespace Sys2Proof.Machine

/-! ### One byte -/

@[simp] theorem Memory.read_nil (a : Nat) : Memory.read [] a = resetByte a := rfl

theorem Memory.read_filter_ne (m : Memory) (a b : Nat) (h : b ≠ a) :
    Memory.read (m.filter (fun c => c.1 != a)) b = Memory.read m b := by
  induction m with
  | nil => rfl
  | cons c m ih =>
    by_cases hc : c.1 = a
    · have hb : c.1 ≠ b := fun e => h (e ▸ hc)
      simp [hc, Memory.read, ih]
      exact fun e => absurd e.symm h
    · simp [hc, Memory.read, ih]

theorem Memory.read_filter_self (m : Memory) (a : Nat) :
    Memory.read (m.filter (fun c => c.1 != a)) a = resetByte a := by
  induction m with
  | nil => rfl
  | cons c m ih =>
    by_cases hc : c.1 = a
    · simp [hc, ih]
    · simp [hc, Memory.read, ih]

theorem Memory.read_insertCell_ne (c : Host.Cell) (m : Memory) (b : Nat) (h : b ≠ c.1) :
    Memory.read (insertCell c m) b = Memory.read m b := by
  induction m with
  | nil => simp [insertCell, Memory.read, Ne.symm h]
  | cons d m ih =>
    unfold insertCell
    split
    · simp [Memory.read, Ne.symm h]
    · simp [Memory.read, ih]

theorem Memory.read_insertCell_self (c : Host.Cell) (m : Memory) (h : ∀ d ∈ m, d.1 ≠ c.1) :
    Memory.read (insertCell c m) c.1 = c.2 := by
  induction m with
  | nil => simp [insertCell, Memory.read]
  | cons d m ih =>
    unfold insertCell
    split
    · simp [Memory.read]
    · simp [Memory.read, h d (by simp), ih (fun e he => h e (by simp [he]))]

/-- A read after a write: the byte written, or the byte that was there (R61). It holds of every list, canonical or not. -/
theorem Memory.read_write (m : Memory) (a b : Nat) (v : Byte) :
    (Memory.write m a v).read b = if b = a then v else m.read b := by
  unfold Memory.write
  by_cases hv : v = resetByte a
  · by_cases hb : b = a
    · subst hb; simp [hv, Memory.read_filter_self]
    · simp [hv, hb, Memory.read_filter_ne m a b hb]
  · by_cases hb : b = a
    · subst hb
      simp only [hv, if_false, if_true]
      exact Memory.read_insertCell_self (b, v) _ (by simp)
    · simp only [hv, hb, if_false]
      rw [Memory.read_insertCell_ne _ _ _ (by simpa using hb), Memory.read_filter_ne m a b hb]

/-! ### The canonical form -/

theorem insertCell_mem (c d : Host.Cell) (m : Memory) : d ∈ insertCell c m ↔ d = c ∨ d ∈ m := by
  induction m with
  | nil => simp [insertCell]
  | cons e m ih =>
    unfold insertCell
    split
    · simp
    · simp [ih]; tauto

theorem insertCell_rising (c : Host.Cell) (m : Memory) (h : m.Pairwise (fun c d => c.1 < d.1)) (hc : ∀ d ∈ m, d.1 ≠ c.1) :
    (insertCell c m).Pairwise (fun c d => c.1 < d.1) := by
  induction m with
  | nil => simp [insertCell]
  | cons e m ih =>
    rw [List.pairwise_cons] at h
    unfold insertCell
    split
    · rename_i hlt
      refine List.pairwise_cons.2 ⟨fun d hd => ?_, List.pairwise_cons.2 h⟩
      rcases List.mem_cons.1 hd with rfl | hd
      · exact hlt
      · exact lt_trans hlt (h.1 d hd)
    · rename_i hge
      refine List.pairwise_cons.2 ⟨fun d hd => ?_, ih h.2 (fun d hd => hc d (by simp [hd]))⟩
      rcases (insertCell_mem c d m).1 hd with rfl | hd
      · have := hc e (by simp); omega
      · exact h.1 d hd

theorem Memory.wf_nil : Memory.wf [] := by simp [Memory.wf]

/-- A write inside memory keeps the canonical form. -/
theorem Memory.wf_write {m : Memory} (h : Memory.wf m) {a : Nat} (ha : a < 4096) (v : Byte) :
    Memory.wf (m.write a v) := by
  have hs : (m.filter (fun c => c.1 != a)).Pairwise (fun c d => c.1 < d.1) := h.1.sublist (List.filter_sublist)
  have hm : ∀ c ∈ m.filter (fun c => c.1 != a), c.1 < 4096 ∧ c.2 ≠ resetByte c.1 :=
    fun c hc => h.2 c (List.mem_filter.1 hc).1
  unfold Memory.write
  by_cases hv : v = resetByte a
  · simp only [hv, if_true]
    exact ⟨hs, hm⟩
  · simp only [hv, if_false]
    refine ⟨insertCell_rising _ _ hs (by simp), fun c hc => ?_⟩
    rcases (insertCell_mem _ _ _).1 hc with rfl | hc
    · exact ⟨ha, hv⟩
    · exact hm c hc

/-! ### Blocks -/

theorem wrapAddr_lt (b k : Nat) : wrapAddr b k < 4096 := Nat.mod_lt _ (by decide)

theorem wrapAddr_succ (b k : Nat) : wrapAddr (b + 1) k = wrapAddr b (k + 1) := by
  simp [wrapAddr, Nat.add_assoc, Nat.add_comm 1 k]

/-- Every block write keeps the canonical form. -/
theorem Memory.wf_writeBlock {m : Memory} (h : Memory.wf m) (b : Nat) (vs : List Byte) :
    Memory.wf (m.writeBlock b vs) := by
  induction vs generalizing m b with
  | nil => exact h
  | cons v vs ih => exact ih (Memory.wf_write h (wrapAddr_lt _ _) v) _

/-- An address that no byte of the block goes to reads as before. -/
theorem Memory.read_writeBlock_outside (m : Memory) (b a : Nat) (vs : List Byte)
    (h : ∀ k < vs.length, a ≠ wrapAddr b k) : (m.writeBlock b vs).read a = m.read a := by
  induction vs generalizing m b with
  | nil => rfl
  | cons v vs ih =>
    rw [Memory.writeBlock, ih _ _ (fun k hk => by rw [wrapAddr_succ]; exact h (k + 1) (by simpa using hk)),
      Memory.read_write, if_neg (h 0 (by simp))]

/-- The k-th byte of the block stands at `(b + k) mod 4096`, for a block that does not meet itself (R51). -/
theorem Memory.read_writeBlock_inside (m : Memory) (b k : Nat) (vs : List Byte) (hl : vs.length ≤ 4096)
    (hk : k < vs.length) : (m.writeBlock b vs).read (wrapAddr b k) = vs[k] := by
  induction vs generalizing m b k with
  | nil => simp at hk
  | cons v vs ih =>
    have hl' : vs.length + 1 ≤ 4096 := by simpa using hl
    cases k with
    | zero =>
      rw [Memory.writeBlock, Memory.read_writeBlock_outside, Memory.read_write, if_pos rfl]
      · rfl
      · intro j hj
        simp only [wrapAddr]
        omega
    | succ k =>
      rw [Memory.writeBlock, ← wrapAddr_succ]
      simpa using ih (m.write (wrapAddr b 0) v) (b + 1) k (by omega) (by simpa using hk)

/-! ### The same for a state -/

theorem State.read_writeBlock_outside (s : State) (b a : Nat) (vs : List Byte)
    (h : ∀ k < vs.length, a ≠ wrapAddr b k) : (s.writeBlock b vs).read a = s.read a :=
  Memory.read_writeBlock_outside s.memory b a vs h

theorem State.read_writeBlock_inside (s : State) (b k : Nat) (vs : List Byte) (hl : vs.length ≤ 4096)
    (hk : k < vs.length) : (s.writeBlock b vs).read (wrapAddr b k) = vs[k] :=
  Memory.read_writeBlock_inside s.memory b k vs hl hk

theorem State.regsUpTo_length (s : State) (x : Reg) : (s.regsUpTo x).length = x.val + 1 := by
  simp [State.regsUpTo]

theorem State.regsUpTo_get (s : State) (x : Reg) (k : Nat) (hk : k < (s.regsUpTo x).length) :
    (s.regsUpTo x)[k] = s.reg ⟨k, by have := s.regsUpTo_length x; omega⟩ := by
  simp [State.regsUpTo, State.reg]

/-- Reset leaves the canonical memory: nothing listed. -/
theorem State.reset_memory_wf : Memory.wf State.reset.memory := Memory.wf_nil

end Sys2Proof.Machine
end

