-- ==== Sys2Proof/Laws/Step.lean ====
section
/-! SUPPORT. The step, said once: which event happens, what a Step fetches and runs, and how a word becomes bytes and a word again. -/

namespace Sys2Proof.Machine

/-- The event at the head of the schedule happens. -/
theorem step_event {s : State} {e : HostEvent} {rest : List HostEvent} (h : s.schedule = e :: rest) :
    step s = runEvent e { s with schedule := rest } := by
  simp [step, State.nextEvent, State.takeEvent, h]

/-- With an empty schedule the event is the plan's first. -/
theorem step_planned {s : State} (h : s.schedule = []) :
    step s = runEvent s.afterwards.next { s with afterwards := s.afterwards.later } := by
  simp [step, State.nextEvent, State.takeEvent, h]

/-- An endless plan unrolls: its first event may be put on the empty schedule. -/
theorem step_unroll {s : State} (h : s.schedule = []) :
    step s = step { s with schedule := [s.afterwards.next], afterwards := s.afterwards.later } := by
  rw [step_planned h, step_event (s := { s with schedule := [s.afterwards.next], afterwards := s.afterwards.later }) rfl, ← h]

/-- A host that issues Steps alone issues a Step. -/
theorem step_idle {s : State} (h : s.schedule = []) (ha : s.afterwards = .repeats .step []) : step s = engineStep s := by
  rw [step_planned h, ha]
  exact congrArg engineStep (show { s with afterwards := .repeats .step [] } = s by rw [← ha])

/-- Both ways a Step can be next. -/
theorem step_of_stepIsNext {s : State} {rest : List HostEvent} (h : StepIsNext s rest) :
    step s = engineStep { s with schedule := rest } := by
  rcases h with ⟨h, ha, rfl⟩ | h
  · rw [step_idle h ha, ← h]
  · exact step_event h

/-- The fetched word (20_memory.md R52, R53). -/
theorem State.fetch_eq (s : State) :
    s.fetch = s.read (s.pc.toNat % 4096) ++ s.read ((s.pc.toNat + 1) % 4096) := rfl

theorem engineStep_ok {s : State} {i : Instr} (h : decodeWord s.fetch = .ok i) :
    engineStep s = exec i s.beginStep := by
  simp [engineStep, h]

theorem engineStep_error {s : State} {e : DecodeError} (h : decodeWord s.fetch = .error e) :
    engineStep s = .next (s.beginStep.unknownOpcode s.fetch) := by
  simp [engineStep, h]

/-- Everything an event can do (00_scope.md R8): one of the five host events other than Step, an instruction, or the fallback. -/
theorem step_cases {s t : State} (h : step s = .next t) :
    t = s.takeEvent.hostReset ∨ (∃ image, t = s.takeEvent.hostLoad image) ∨ (∃ k, t = s.takeEvent.hostKeyWrite k) ∨
    t = s.takeEvent.hostTick ∨ t = s.takeEvent.hostDrawAck ∨ (∃ i, exec i s.takeEvent.beginStep = .next t) ∨
    t = s.takeEvent.beginStep.unknownOpcode s.takeEvent.fetch := by
  unfold step runEvent at h
  split at h
  case h_1 => injection h with h; exact .inl h.symm
  case h_2 => injection h with h; exact .inr (.inl ⟨_, h.symm⟩)
  case h_3 => injection h with h; exact .inr (.inr (.inl ⟨_, h.symm⟩))
  case h_4 =>
    unfold engineStep at h
    split at h
    · exact .inr (.inr (.inr (.inr (.inr (.inl ⟨_, h⟩)))))
    · injection h with h; exact .inr (.inr (.inr (.inr (.inr (.inr h.symm)))))
  case h_5 => injection h with h; exact .inr (.inr (.inr (.inl h.symm)))
  case h_6 => injection h with h; exact .inr (.inr (.inr (.inr (.inl h.symm))))

/-! ### Words and bytes (R53) -/

theorem wordOfBytes_toNat (hi lo : Byte) : (wordOfBytes hi lo).toNat = hi.toNat * 256 + lo.toNat :=
  append_toNat hi lo

theorem wordOfBytes_split (op : Word) : wordOfBytes (op.extractLsb' 8 8) (op.extractLsb' 0 8) = op := by
  apply BitVec.eq_of_toNat_eq
  rw [wordOfBytes_toNat]
  simp [Nat.shiftRight_eq_div_pow]
  omega

/-- A word placed at `pc` is the word fetched. -/
theorem State.fetch_placeWord (s : State) (op : Word) : (s.placeWord op).fetch = op := by
  have h0 := s.read_writeBlock_inside s.pc.toNat 0 (bytesOfWord op) (by simp [bytesOfWord]) (by simp [bytesOfWord])
  have h1 := s.read_writeBlock_inside s.pc.toNat 1 (bytesOfWord op) (by simp [bytesOfWord]) (by simp [bytesOfWord])
  refine Eq.trans (b := _) ?_ (wordOfBytes_split op)
  exact congrArg₂ wordOfBytes h0 h1

end Sys2Proof.Machine
end

