-- ==== Sys2Proof/Laws/Exec.lean ====
section
/-! SUPPORT. The meanings that branch, one equation per branch, and the frame of each shared operation. -/

namespace Sys2Proof.Machine

/-! ### Branches -/

theorem execRet_pop {s : State} (h : 0 < s.sp.val) : execRet s = .next (s.pop.setPc (s.top h)) := by
  simp only [execRet, dif_pos h]

theorem execRet_empty {s : State} (h : s.sp = 0) : execRet s = .next (s.raise (.stackUnderflow s.pc)) := by
  simp [execRet, h]

theorem execCall_push {s : State} (nnn : BitVec 12) (h : s.sp.val < 16) :
    execCall nnn s = .next ((s.push (s.pc + 2) h).setPc (zextAddr nnn)) := by
  simp only [execCall, dif_pos h]

theorem execCall_full {s : State} (nnn : BitVec 12) (h : s.sp = 16) :
    execCall nnn s = .next (s.raise (.stackOverflow s.pc)).advance := by
  have : ¬ s.sp.val < 16 := by rw [h]; decide
  simp only [execCall, dif_neg this]

theorem execLdVxK_none {s : State} (x : Reg) (h : s.firstKey = none) : execLdVxK x s = .next s := by
  simp [execLdVxK, h]

theorem execLdVxK_some {s : State} (x : Reg) {k : Nat} (h : s.firstKey = some k) :
    execLdVxK x s = .next (s.setReg x (BitVec.ofNat 8 k)).advance := by
  simp [execLdVxK, h]

/-- No key is found exactly when none is pressed (R162). -/
theorem State.firstKey_eq_none (s : State) : s.firstKey = none ↔ ∀ k < 16, s.pressed k = false := by
  simp [State.firstKey]

/-- The key found is the least one pressed (R162). -/
theorem State.firstKey_eq_some (s : State) (k : Nat) :
    s.firstKey = some k ↔ k < 16 ∧ s.pressed k = true ∧ ∀ j < k, s.pressed j = false := by
  unfold State.firstKey
  rw [List.find?_range_eq_some]
  simp [and_left_comm]

/-! ### Frames of the shared operations -/

theorem ChangesOnly.of_setPc (s : State) (a : Word) : ChangesOnly {} s (s.setPc a) := by
  constructor <;> intros <;> first | rfl | exact ⟨rfl, rfl⟩

theorem ChangesOnly.of_setReg (s : State) (x : Reg) (v : Byte) :
    ChangesOnly { regs := [x] } s (s.setReg x v).advance := by
  constructor <;> first | exact fun _ => ⟨rfl, rfl⟩ | (intros; rfl) | skip
  intro r hr
  simpa using s.reg_setReg_ne v (by simpa using hr)

theorem ChangesOnly.of_writeFlagged (s : State) (x : Reg) (f : Bool) (v : Byte) :
    ChangesOnly { regs := [x, 15] } s (s.writeFlagged x f v) := by
  constructor <;> first | exact fun _ => ⟨rfl, rfl⟩ | (intros; rfl) | skip
  intro r hr
  simp only [List.mem_cons, List.not_mem_nil, or_false, not_or] at hr
  simp [State.reg_writeFlagged, hr]

theorem ChangesOnly.of_setI (s : State) (v : Word) : ChangesOnly { index := true } s (s.setI v).advance := by
  constructor <;> first | exact fun _ => ⟨rfl, rfl⟩ | (intros; rfl) | (intro h; cases h)

theorem ChangesOnly.of_raise (s : State) (c : Condition) (a : Word) :
    ChangesOnly { reports := true } s ((s.raise c).setPc a) := by
  constructor <;> first | exact fun _ => ⟨rfl, rfl⟩ | (intros; rfl) | (intro h; cases h)

theorem WritesResult.of_exec {i : Instr} {x : Reg} {v : Byte} {s : State}
    (h : exec i s = .next (s.setReg x v).advance) : WritesResult i x v s :=
  ⟨_, h, s.reg_setReg_self x v, rfl, ChangesOnly.of_setReg s x v⟩

theorem WritesFlagAndResult.of_exec {i : Instr} {x : Reg} {f : Bool} {v : Byte} {s : State} {flag result : Nat}
    (h : exec i s = .next (s.writeFlagged x f v)) (hf : (flagByte f).toNat = flag) (hv : v.toNat = result) :
    WritesFlagAndResult i x flag result s := by
  refine ⟨_, h, ?_, fun hx => ?_, rfl, ChangesOnly.of_writeFlagged s x f v⟩
  · simp [State.reg_writeFlagged, hv]
  · simp [State.reg_writeFlagged, hf, Ne.symm hx]

theorem SkipsWhen.of_exec {i : Instr} {c : Bool} {holds : Prop} {s : State}
    (h : exec i s = .next (s.skipIf c)) (hc : c = true ↔ holds) : SkipsWhen i holds s := by
  refine ⟨_, h, fun p => ?_, fun p => ?_, ChangesOnly.of_setPc s _⟩
  · simp [hc.2 p]
  · simp [mt hc.1 p]

/-! ### The host's plan -/

/-- No instruction touches the host's coming events (log 13: they are the host's, not the core's). -/
theorem exec_keeps_plan {i : Instr} {s t : State} (h : exec i s = .next t) :
    t.schedule = s.schedule ∧ t.afterwards = s.afterwards := by
  cases i <;> simp only [exec] at h
  case ret => unfold execRet at h; split at h <;> (injection h with h; subst h; simp)
  case call => unfold execCall at h; split at h <;> (injection h with h; subst h; simp)
  case ldVxK => unfold execLdVxK at h; split at h <;> (injection h with h; subst h; simp)
  all_goals (injection h with h; subst h; simp)

/-- An event leaves the plan as `takeEvent` does (R10). -/
theorem step_keeps_plan {s t : State} (h : step s = .next t) :
    t.schedule = s.takeEvent.schedule ∧ t.afterwards = s.takeEvent.afterwards := by
  rcases step_cases h with e | ⟨_, e⟩ | ⟨_, e⟩ | e | e | ⟨i, h⟩ | e
  case inr.inr.inr.inr.inr.inl => exact exec_keeps_plan (s := s.takeEvent.beginStep) h
  case inr.inl => rw [e]; simp
  all_goals rw [e]; exact ⟨rfl, rfl⟩

end Sys2Proof.Machine
end

