-- ==== Sys2Proof/Laws/PerInstr.lean ====
section
/-! SUPPORT. Statements for all instructions, made per instruction. Family RowInTable: every instruction's row is one of the 34 of
30_encoding.md R74. -/

namespace Sys2Proof.Laws.RowInTable

/-- The row an instruction belongs to stands in the table. -/
def Statement (i : Instr) : Prop := rowOf i ∈ opcodeTable

theorem cls : Statement (.cls) := by
  simp only [Statement, rowOf]; decide

theorem ret : Statement (.ret) := by
  simp only [Statement, rowOf]; decide

theorem jp (nnn : BitVec 12) : Statement (.jp nnn) := by
  simp only [Statement, rowOf]; decide

theorem call (nnn : BitVec 12) : Statement (.call nnn) := by
  simp only [Statement, rowOf]; decide

theorem seImm (x : Reg) (nn : Byte) : Statement (.seImm x nn) := by
  simp only [Statement, rowOf]; decide

theorem sneImm (x : Reg) (nn : Byte) : Statement (.sneImm x nn) := by
  simp only [Statement, rowOf]; decide

theorem seReg (x y : Reg) : Statement (.seReg x y) := by
  simp only [Statement, rowOf]; decide

theorem ldImm (x : Reg) (nn : Byte) : Statement (.ldImm x nn) := by
  simp only [Statement, rowOf]; decide

theorem addImm (x : Reg) (nn : Byte) : Statement (.addImm x nn) := by
  simp only [Statement, rowOf]; decide

theorem ldReg (x y : Reg) : Statement (.ldReg x y) := by
  simp only [Statement, rowOf]; decide

theorem orReg (x y : Reg) : Statement (.orReg x y) := by
  simp only [Statement, rowOf]; decide

theorem andReg (x y : Reg) : Statement (.andReg x y) := by
  simp only [Statement, rowOf]; decide

theorem xorReg (x y : Reg) : Statement (.xorReg x y) := by
  simp only [Statement, rowOf]; decide

theorem addReg (x y : Reg) : Statement (.addReg x y) := by
  simp only [Statement, rowOf]; decide

theorem subReg (x y : Reg) : Statement (.subReg x y) := by
  simp only [Statement, rowOf]; decide

theorem shr (x y : Reg) : Statement (.shr x y) := by
  simp only [Statement, rowOf]; decide

theorem subnReg (x y : Reg) : Statement (.subnReg x y) := by
  simp only [Statement, rowOf]; decide

theorem shl (x y : Reg) : Statement (.shl x y) := by
  simp only [Statement, rowOf]; decide

theorem sneReg (x y : Reg) : Statement (.sneReg x y) := by
  simp only [Statement, rowOf]; decide

theorem ldIndex (nnn : BitVec 12) : Statement (.ldIndex nnn) := by
  simp only [Statement, rowOf]; decide

theorem jpV0 (nnn : BitVec 12) : Statement (.jpV0 nnn) := by
  simp only [Statement, rowOf]; decide

theorem rnd (x : Reg) (nn : Byte) : Statement (.rnd x nn) := by
  simp only [Statement, rowOf]; decide

theorem drw (x y : Reg) (n : Nat) : Statement (.drw x y n) := by
  simp only [Statement, rowOf]; decide

theorem skp (x : Reg) : Statement (.skp x) := by
  simp only [Statement, rowOf]; decide

theorem sknp (x : Reg) : Statement (.sknp x) := by
  simp only [Statement, rowOf]; decide

theorem ldVxDT (x : Reg) : Statement (.ldVxDT x) := by
  simp only [Statement, rowOf]; decide

theorem ldVxK (x : Reg) : Statement (.ldVxK x) := by
  simp only [Statement, rowOf]; decide

theorem ldDTVx (x : Reg) : Statement (.ldDTVx x) := by
  simp only [Statement, rowOf]; decide

theorem ldSTVx (x : Reg) : Statement (.ldSTVx x) := by
  simp only [Statement, rowOf]; decide

theorem addIndex (x : Reg) : Statement (.addIndex x) := by
  simp only [Statement, rowOf]; decide

theorem ldFont (x : Reg) : Statement (.ldFont x) := by
  simp only [Statement, rowOf]; decide

theorem storeBcd (x : Reg) : Statement (.storeBcd x) := by
  simp only [Statement, rowOf]; decide

theorem dumpRegs (x : Reg) : Statement (.dumpRegs x) := by
  simp only [Statement, rowOf]; decide

theorem loadRegs (x : Reg) : Statement (.loadRegs x) := by
  simp only [Statement, rowOf]; decide

end Sys2Proof.Laws.RowInTable
end

