-- ==== Sys2Proof/Tests/Slice0.lean ====
section
/-! SUPPORT. The model's own tests. Expected results come from spec/95_test_vectors.md (the row is named "Vn.row") or are worked out by
hand from the rule named. Words are written out from the patterns of 30_encoding.md R74. The last part holds the witnesses: for every
obligation with hypotheses, a concrete state and operands that meet them all, at the ends of their ranges. -/

namespace Sys2Proof.Tests

open Sys2Proof.Machine

/-! ## Well-formedness -/

theorem test_wellFormed_refuses_height_16 : wellFormed (.drw 0 0 16) = false := by decide

theorem test_wellFormed_accepts_height_15 : wellFormed (.drw 15 15 15) = true := by decide

/-! ## Decoding: a word of every constructor -/

theorem test_decode_cls : decodeWord 0x00E0 = .ok .cls := by decide
theorem test_decode_ret : decodeWord 0x00EE = .ok .ret := by decide
theorem test_decode_jp : decodeWord 0x1ABC = .ok (.jp 0xABC) := by decide
theorem test_decode_call : decodeWord 0x2FED = .ok (.call 0xFED) := by decide
theorem test_decode_seImm : decodeWord 0x3A5C = .ok (.seImm 10 0x5C) := by decide
theorem test_decode_sneImm : decodeWord 0x4A5C = .ok (.sneImm 10 0x5C) := by decide
theorem test_decode_seReg : decodeWord 0x5AB0 = .ok (.seReg 10 11) := by decide
theorem test_decode_ldImm : decodeWord 0x6F07 = .ok (.ldImm 15 0x07) := by decide
theorem test_decode_addImm : decodeWord 0x70FF = .ok (.addImm 0 0xFF) := by decide
theorem test_decode_ldReg : decodeWord 0x8120 = .ok (.ldReg 1 2) := by decide
theorem test_decode_orReg : decodeWord 0x8121 = .ok (.orReg 1 2) := by decide
theorem test_decode_andReg : decodeWord 0x8122 = .ok (.andReg 1 2) := by decide
theorem test_decode_xorReg : decodeWord 0x8123 = .ok (.xorReg 1 2) := by decide
theorem test_decode_addReg : decodeWord 0x8124 = .ok (.addReg 1 2) := by decide
theorem test_decode_subReg : decodeWord 0x8125 = .ok (.subReg 1 2) := by decide
theorem test_decode_shr : decodeWord 0x81F6 = .ok (.shr 1 15) := by decide
theorem test_decode_subnReg : decodeWord 0x8127 = .ok (.subnReg 1 2) := by decide
theorem test_decode_shl : decodeWord 0x812E = .ok (.shl 1 2) := by decide
theorem test_decode_sneReg : decodeWord 0x9AB0 = .ok (.sneReg 10 11) := by decide
theorem test_decode_ldIndex : decodeWord 0xA250 = .ok (.ldIndex 0x250) := by decide
theorem test_decode_jpV0 : decodeWord 0xBFFF = .ok (.jpV0 0xFFF) := by decide
theorem test_decode_rnd : decodeWord 0xC10F = .ok (.rnd 1 0x0F) := by decide
theorem test_decode_drw : decodeWord 0xD12F = .ok (.drw 1 2 15) := by decide
theorem test_decode_skp : decodeWord 0xEF9E = .ok (.skp 15) := by decide
theorem test_decode_sknp : decodeWord 0xE1A1 = .ok (.sknp 1) := by decide
theorem test_decode_ldVxDT : decodeWord 0xF307 = .ok (.ldVxDT 3) := by decide
theorem test_decode_ldVxK : decodeWord 0xFF0A = .ok (.ldVxK 15) := by decide
theorem test_decode_ldDTVx : decodeWord 0xF315 = .ok (.ldDTVx 3) := by decide
theorem test_decode_ldSTVx : decodeWord 0xF018 = .ok (.ldSTVx 0) := by decide
theorem test_decode_addIndex : decodeWord 0xF21E = .ok (.addIndex 2) := by decide
theorem test_decode_ldFont : decodeWord 0xF029 = .ok (.ldFont 0) := by decide
theorem test_decode_storeBcd : decodeWord 0xF033 = .ok (.storeBcd 0) := by decide
theorem test_decode_dumpRegs : decodeWord 0xFF55 = .ok (.dumpRegs 15) := by decide
theorem test_decode_loadRegs : decodeWord 0xF265 = .ok (.loadRegs 2) := by decide

/-- V8.1 to V8.3, V1.20, V3.30, V6.19: words that select no instruction. -/
theorem test_decode_unknown :
    ([0x0000, 0x0123, 0x00E1, 0x00FE, 0x00FF, 0x00C0, 0x9121, 0x5121, 0x8128, 0x812F, 0xE19F, 0xF108, 0xF1FF, 0xE000].map
      (decodeTableWord 16)) = List.replicate 14 none := by decide

/-- The rejection names the word. -/
theorem test_decode_unknown_names_the_word : decodeWord 0x9121 = .error (.unknownOpcode 0x9121) := by decide

/-- The encoder against words written out by hand, one of each format. -/
theorem test_encode_formats :
    encode .cls = 0x00E0 ∧ encode (.jp 0xABC) = 0x1ABC ∧ encode (.ldImm 15 0x07) = 0x6F07 ∧
    encode (.drw 1 2 15) = 0xD12F ∧ encode (.loadRegs 2) = 0xF265 := by decide

/-- The first byte of an instruction is its high byte (20_memory.md R53). -/
theorem test_decodeBytes_order : decodeBytes [0xA2, 0x50, 0xFF] = .ok (.ldIndex 0x250, [0xFF]) := by decide

/-- The opcode table's numbering: bit 0 is the least significant bit of the word. -/
theorem test_decodeTableWord : decodeTableWord 16 0xD125 = some (.drw 1 2 5) ∧ decodeTableWord 16 0x5121 = none := by decide

/-! ## Memory -/

/-- V8.5: what Reset leaves around the font. -/
theorem test_reset_memory :
    ([0x04F, 0x050, 0x09F, 0x0A0].map State.reset.read) = [0x00, 0xF0, 0x80, 0x00] := by decide

/-- Writing what an unlisted address reads as removes the entry; other writes are kept in rising order. -/
theorem test_memory_canonical :
    Memory.write (Memory.write (Memory.write [] 0x300 7) 0x050 9) 0x300 0 = [(0x050, 9)] ∧
    Memory.write (Memory.write [] 0x300 7) 0x200 1 = [(0x200, 1), (0x300, 7)] := by decide

theorem test_reset_memory_wf : Memory.wf State.reset.memory := by decide

/-! ## One step on a small state -/

/-- The state after Reset with some registers and `I` set. -/
def start (regs : List (Reg × Byte)) (I : Word := 0) : State :=
  { regs.foldl (fun s r => s.setReg r.1 r.2) State.reset with I := I }

/-- The state after the step that runs the word `w` placed at `pc`. -/
def after (w : Nat) (s : State) : Option State :=
  match step (s.withFetchWord 16 w) with
  | .next t => some t
  | .fault _ | .refused _ => none

/-- The state after the step that takes the event `e`. -/
def afterEvent (e : HostEvent) (s : State) : Option State :=
  match step { s with schedule := [e] } with
  | .next t => some t
  | .fault _ | .refused _ => none

/-- `V[1]`, `VF` and `pc`. -/
def seen (t : State) : Byte × Byte × Word := (t.reg 1, t.reg 15, t.pc)

/-- The numbers of the set pixels, in rising order. -/
def pixels (t : State) : List Nat := ((List.finRange 2048).filter (fun p => Frame.pixel t.gfx p)).map (·.val)

/-! ### Control transfer -/

/-- P2: the return address is that of the instruction after the call. -/
theorem test_call : (after 0x2208 State.reset).map (fun t => (t.pc, t.sp, t.stack[0])) = some (0x208, 1, 0x202) := by decide

/-- P5: on a full stack the call is reported and skipped. -/
theorem test_call_full : (after 0x2200 { State.reset with sp := 16 }).map (fun t => (t.pc, t.sp, t.cond)) =
    some (0x202, 16, some (.stackOverflow 0x200)) := by decide

/-- R100: the popped entry keeps its value. -/
theorem test_ret : (after 0x00EE { State.reset with sp := 1, stack := Vector.replicate 16 0xABCD }).map
    (fun t => (t.pc, t.sp, t.stack[0])) = some (0xABCD, 0, 0xABCD) := by decide

/-- P5: on an empty stack the return is reported and nothing moves. -/
theorem test_ret_empty : (after 0x00EE State.reset).map (fun t => (t.pc, t.sp, t.cond)) =
    some (0x200, 0, some (.stackUnderflow 0x200)) := by decide

theorem test_jp : (after 0x1234 State.reset).map (·.pc) = some 0x234 := by decide

/-- V1.23: the flag can be read by a skip. -/
theorem test_seImm : (after 0x3F01 (start [(15, 1)])).map (·.pc) = some 0x204 := by decide

/-- R104: equal, so no skip. -/
theorem test_sneImm : (after 0x4107 (start [(1, 7)])).map (·.pc) = some 0x202 := by decide

/-- R105. -/
theorem test_seReg : (after 0x5120 (start [(1, 7), (2, 7)])).map (·.pc) = some 0x204 := by decide

/-- V1.18 and V1.19. -/
theorem test_sneReg : (after 0x9120 (start [(1, 7), (2, 8)])).map (·.pc) = some 0x204 ∧
    (after 0x9120 (start [(1, 7), (2, 7)])).map (·.pc) = some 0x202 := by decide

/-- V1.22: the target is not reduced to 12 bits. -/
theorem test_jpV0 : (after 0xBFFF (start [(0, 0xFF)])).map (·.pc) = some 0x10FE := by decide

/-- V1.22: the next fetch wraps to 0x0FE and finds a word that selects no instruction. -/
theorem test_fetch_wraps : (afterEvent .step { State.reset with pc := 0x10FE }).map (fun t => (t.pc, t.cond)) =
    some (0x1100, some (.unknownOpcode 0 0x10FE)) := by decide

/-- V1.24: an instruction fetched across the top of memory; `pc` is not masked. -/
theorem test_fetch_across_top : (after 0x6177 { State.reset with pc := 0x0FFF }).map (fun t => (t.reg 1, t.pc)) =
    some (0x77, 0x1001) := by decide

/-! ### Immediates, arithmetic and logic -/

/-- V2.2. -/
theorem test_ldImm : (after 0x6F07 State.reset).map (fun t => (t.reg 15, t.pc)) = some (0x07, 0x202) := by decide

/-- V2.3: no carry flag. -/
theorem test_addImm : (after 0x7001 (start [(0, 0xFF)])).map (fun t => (t.reg 0, t.reg 15, t.pc)) = some (0, 0, 0x202) := by
  decide

/-- V3.1. -/
theorem test_ldReg : (after 0x8120 (start [(2, 0xAB)])).map seen = some (0xAB, 0, 0x202) := by decide

/-- V3.3: the flag is not cleared. -/
theorem test_orReg : (after 0x8121 (start [(1, 0xF0), (2, 0x0F), (15, 1)])).map seen = some (0xFF, 1, 0x202) := by decide

/-- V3.4. -/
theorem test_andReg : (after 0x8122 (start [(1, 0xF3), (2, 0x3C)])).map seen = some (0x30, 0, 0x202) := by decide

/-- V3.5. -/
theorem test_xorReg : (after 0x8123 (start [(1, 0xFF), (2, 0x0F)])).map seen = some (0xF0, 0, 0x202) := by decide

/-- V3.7 and V3.11. -/
theorem test_addReg : (after 0x8124 (start [(1, 0xF0), (2, 0x20)])).map seen = some (0x10, 1, 0x202) ∧
    (after 0x8124 (start [(1, 1), (2, 1), (15, 1)])).map seen = some (2, 0, 0x202) := by decide

/-- V3.31 and V3.33: register 15 as `x` and as `y`. -/
theorem test_addReg_VF : (after 0x8F14 (start [(15, 0xFF), (1, 2)])).map seen = some (2, 1, 0x202) ∧
    (after 0x83F4 (start [(3, 0xF0), (15, 0x20)])).map (fun t => (t.reg 3, t.reg 15)) = some (0x10, 1) := by decide

/-- V3.14 and V3.15: a borrow, and equal operands. -/
theorem test_subReg : (after 0x8125 (start [(1, 0x10), (2, 0x20)])).map seen = some (0xF0, 0, 0x202) ∧
    (after 0x8125 (start [(1, 0x33), (2, 0x33)])).map seen = some (0, 0, 0x202) := by decide

/-- V3.17. -/
theorem test_subReg_flag : (after 0x8125 (start [(1, 0xFF), (2, 0)])).map seen = some (0xFF, 1, 0x202) := by decide

/-- V3.18 and V3.19. -/
theorem test_subnReg : (after 0x8127 (start [(1, 0x10), (2, 0x20)])).map seen = some (0x10, 1, 0x202) ∧
    (after 0x8127 (start [(1, 0x20), (2, 0x10)])).map seen = some (0xF0, 0, 0x202) := by decide

/-- V3.22 and V3.23: `y` plays no part. -/
theorem test_shr : (after 0x81F6 (start [(1, 5)])).map seen = some (2, 1, 0x202) ∧
    (after 0x8126 (start [(1, 4), (2, 0xFF)])).map seen = some (2, 0, 0x202) := by decide

/-- V3.35: the result overwrites the flag. -/
theorem test_shr_VF : (after 0x8F06 (start [(15, 6)])).map (·.reg 15) = some 3 := by decide

/-- V3.26 and V3.27. -/
theorem test_shl : (after 0x810E (start [(1, 0x81)])).map seen = some (2, 1, 0x202) ∧
    (after 0x810E (start [(1, 0x40)])).map seen = some (0x80, 0, 0x202) := by decide

/-- V3.37. -/
theorem test_shl_VF : (after 0x8F0E (start [(15, 0xC1)])).map (·.reg 15) = some 0x82 := by decide

/-! ### Index register and random byte -/

/-- V4.2. -/
theorem test_ldIndex : (after 0xAFFF State.reset).map (fun t => (t.I, t.pc)) = some (0xFFF, 0x202) := by decide

/-- V4.3: the draw B7 under the mask 0F. -/
theorem test_rnd_masks_the_draw : (State.reset.maskedDraw 1 0x0F 0xB7).reg 1 = 0x07 := by decide

/-- V4.4: any draw under the mask 00. -/
theorem test_rnd_zero_mask (s : State) : ∃ t, exec (.rnd 1 0) s = .next t ∧ t.reg 1 = 0 := by
  refine ⟨_, rfl, ?_⟩
  simp [State.maskedDraw]

/-- V4.7: not masked to 12 bits. -/
theorem test_addIndex : (after 0xF01E (start [(0, 1)] 0xFFF)).map (fun t => (t.I, t.reg 15)) = some (0x1000, 0) := by decide

/-- V4.10 and V4.11. -/
theorem test_ldFont : (after 0xF029 (start [(0, 0x0F)])).map (·.I) = some 0x9B ∧
    (after 0xF029 (start [(0, 0x1A)])).map (·.I) = some 0x82 := by decide

/-! ### Display -/

/-- V5.1. -/
theorem test_cls : (after 0x00E0 { State.reset with gfx := Vector.replicate 32 0xFFFF }).map
    (fun t => (t.gfx, t.drawFlag)) = some (Vector.replicate 32 0, true) := by decide

/-- V5.5: glyph 7 of the font at column 62, row 30: each pixel wraps by itself. -/
theorem test_drw_wraps : (after 0xD125 (start [(1, 62), (2, 30)] 0x73)).map (fun t => (pixels t, t.reg 15, t.drawFlag)) =
    some ([0, 127, 191, 1920, 1921, 1982, 1983, 1985], 0, true) := by decide +kernel

/-- V5.7: with height 0 nothing is drawn, VF is cleared and `draw_flag` set. -/
theorem test_drw_height_0 : (after 0xD120 (start [(15, 1)])).map (fun t => (t.gfx, t.reg 15, t.drawFlag)) =
    some (Vector.replicate 32 0, 0, true) := by decide

/-- V5.6: drawn over itself, the sprite disappears and collides. -/
theorem test_drw_collides : ((after 0xD125 (start [(1, 62), (2, 30)] 0x73)).bind (after 0xD125)).map
    (fun t => (t.gfx, t.reg 15)) = some (Vector.replicate 32 0, 1) := by decide +kernel

/-! ### Keypad and timers -/

/-- V6.1 and V6.5: the key index is the low nibble. -/
theorem test_skp : (after 0xE19E { start [(1, 0x15)] with key := 0x20 }).map (·.pc) = some 0x204 ∧
    (after 0xE19E { start [(1, 5)] with key := 0xFFDF }).map (·.pc) = some 0x202 := by decide

/-- V6.3 and V6.4. -/
theorem test_sknp : (after 0xE1A1 { start [(1, 5)] with key := 0xFFDF }).map (·.pc) = some 0x204 ∧
    (after 0xE1A1 { start [(1, 5)] with key := 0x20 }).map (·.pc) = some 0x202 := by decide

/-- V6.10. -/
theorem test_ldVxDT : (after 0xF307 { State.reset with delayTimer := 0x2A }).map (·.reg 3) = some 0x2A := by decide

/-- V6.7 and V6.8. -/
theorem test_ldVxK : (after 0xF10A { State.reset with key := 0x0208 }).map seen = some (3, 0, 0x202) ∧
    (after 0xFF0A { State.reset with key := 0x8000 }).map seen = some (0, 0x0F, 0x202) := by decide

/-- V6.6: nothing changes. -/
theorem test_ldVxK_waits : exec (.ldVxK 1) State.reset = .next State.reset := rfl

/-- V6.11. -/
theorem test_ldDTVx : (after 0xF315 (start [(3, 0x3C)])).map (fun t => (t.delayTimer, t.soundTimer)) = some (0x3C, 0) := by
  decide

/-- V6.12. -/
theorem test_ldSTVx : (after 0xF018 (start [(0, 5)])).map (fun t => (t.delayTimer, t.soundTimer)) = some (0, 5) := by decide

/-! ### Loads and stores -/

/-- V7.1 and V7.6: the digits, and the wrap at the top of memory. -/
theorem test_storeBcd : (after 0xF033 (start [(0, 0xFE)] 0x300)).map
      (fun t => ([0x300, 0x301, 0x302].map t.read, t.I)) = some ([2, 5, 4], 0x300) ∧
    (after 0xF033 (start [(0, 0xFF)] 0xFFE)).map (fun t => [0xFFE, 0xFFF, 0x000].map t.read) = some [2, 5, 5] := by decide

/-- V7.8: `I` stays with the quirk off. -/
theorem test_dumpRegs : (after 0xF255 (start [(0, 0x11), (1, 0x22), (2, 0x33), (3, 0x44)] 0x400)).map
    (fun t => ([0x400, 0x401, 0x402, 0x403].map t.read, t.I)) = some ([0x11, 0x22, 0x33, 0], 0x400) := by decide

/-- V7.8 with the quirk on. -/
theorem test_dumpRegs_quirk : (after 0xF255 { start [] 0x400 with incrementI := true }).map (·.I) = some 0x403 := by decide

/-- V7.11: the font's glyph 0. -/
theorem test_loadRegs : (after 0xF465 (start [(5, 7)] 0x050)).map
    (fun t => ([0, 1, 2, 3, 4, 5].map (fun r : Reg => t.reg r), t.I)) = some ([0xF0, 0x90, 0x90, 0x90, 0xF0, 7], 0x050) := by decide

/-- V7.10 with the quirk on. -/
theorem test_loadRegs_quirk : (after 0xF265 { start [] 0x300 with incrementI := true }).map (·.I) = some 0x303 := by decide

/-! ### Unknown words and the host's events -/

/-- V8.1: Reset memory holds no program; the word 0000 is reported and skipped. -/
theorem test_unknown : (afterEvent .step State.reset).map (fun t => (t.pc, t.cond, t.faultMark)) =
    some (0x202, some (.unknownOpcode 0 0x200), some (.unknownOpcode 0 0x200)) := by decide

/-- A condition is reported by its own Step alone; the mark stays. -/
theorem test_cond_is_per_step : ((after 0x00EE State.reset).bind (after 0x6005)).map (fun t => (t.cond, t.faultMark)) =
    some (none, some (.stackUnderflow 0x200)) := by decide

/-- V6.13 and V6.14: the countdown stops at 0. -/
theorem test_tick : (afterEvent .tick { State.reset with delayTimer := 2 }).map (fun t => (t.delayTimer, t.soundTimer)) =
    some (1, 0) := by decide

/-- V6.17: KeyWrite(0x0208). -/
theorem test_keyWrite : (afterEvent (.keyWrite 0x0208) { State.reset with key := 0xFFFF }).map
    (fun t => (List.range 16).filter t.pressed) = some [3, 9] := by decide

/-- V6.18. -/
theorem test_drawAck : (afterEvent .drawAck { State.reset with drawFlag := true }).map (·.drawFlag) = some false := by decide

/-- V8.4, with the configuration kept. -/
theorem test_reset : afterEvent .reset { start [(1, 2)] 7 with pc := 9, sp := 3, incrementI := true } =
    some { State.reset with incrementI := true } := by decide

/-- R243: the image goes to 0x200. -/
theorem test_load : (afterEvent (.load [0x60, 0x05]) State.reset).map
    (fun t => ([0x1FF, 0x200, 0x201, 0x202].map t.read, t.pc)) = some ([0, 0x60, 0x05, 0], 0x200) := by decide

/-- V8.7: one byte too many. -/
theorem test_load_too_large : (State.reset.hostLoad (List.replicate 3585 0xFF)) =
    { State.reset with loadResult := some (.programTooLarge 3585) } := by
  unfold State.hostLoad
  rw [List.length_replicate, if_pos (by decide)]

/-! ## Witnesses: the hypotheses of the obligations can be met

One for each obligation with hypotheses, and one for each clause. -/

/-- DecodeOfEncodeGivesTheInstruction: the greatest height. -/
theorem witness_wellFormed : WellFormed (.drw 15 15 15) ∧ WellFormed .cls := by decide

/-- EncodeOfDecodeGivesTheWord. -/
theorem witness_decodes : decodeWord 0xFF65 = .ok (.loadRegs 15) := by decide

/-- StepRunsTheDecodedInstruction, with an empty schedule and with a Step scheduled; the last `pc` at which the fetch wraps. -/
theorem witness_step_decoded :
    (StepIsNext (State.reset.withFetchWord 16 0x6005) [] ∧
      decodeWord ((State.reset.withFetchWord 16 0x6005).read ((State.reset.withFetchWord 16 0x6005).pc.toNat % 4096) ++
        (State.reset.withFetchWord 16 0x6005).read (((State.reset.withFetchWord 16 0x6005).pc.toNat + 1) % 4096)) =
          .ok (.ldImm 0 5)) ∧
    (StepIsNext { State.reset with pc := 0xFFFF, memory := [(0, 0x77), (4095, 0x61)], schedule := [.step, .tick] } [.tick] ∧
      decodeWord (Memory.read [(0, 0x77), (4095, 0x61)] (0xFFFF % 4096) ++
        Memory.read [(0, 0x77), (4095, 0x61)] ((0xFFFF + 1) % 4096)) = .ok (.ldImm 1 0x77)) :=
  ⟨⟨.inl ⟨rfl, rfl, rfl⟩, by decide⟩, .inr rfl, by decide⟩

/-- UnknownWordIsReportedAndSkipped: the state after Reset. -/
theorem witness_step_unknown : StepIsNext State.reset [] ∧
    decodeWord (State.reset.read (State.reset.pc.toNat % 4096) ++ State.reset.read ((State.reset.pc.toNat + 1) % 4096)) =
      .error (.unknownOpcode 0) :=
  ⟨.inl ⟨rfl, rfl, rfl⟩, by decide⟩

/-- PlacedWordIsRunNext: the greatest word of group F that decodes. -/
theorem witness_placed : 0xFF65 < 65536 ∧ decodeTableWord 16 0xFF65 = some (.loadRegs 15) := by decide

/-- ReturnPopsOrStalls: a full stack, one entry, none. -/
theorem witness_ret : 0 < ({ State.reset with sp := 16 } : State).sp.val ∧ 0 < ({ State.reset with sp := 1 } : State).sp.val ∧
    State.reset.sp = 0 := by decide

/-- JumpGoesToItsAddress: a jump to itself. -/
theorem witness_jp_self : State.reset.pc.toNat = (0x200 : BitVec 12).toNat := by decide

/-- CallPushesTheReturnAddress, CallThenReturnComesBack: an empty stack and the last free entry; CallOnFullStackIsSkipped. -/
theorem witness_call : State.reset.sp.val < 16 ∧ ({ State.reset with sp := 15 } : State).sp.val < 16 ∧
    ({ State.reset with sp := 16 } : State).sp = 16 := by decide

/-- SkipsCompareUnsignedBytes: the comparisons hold and fail. -/
theorem witness_skips : State.reset.reg 1 = 0 ∧ State.reset.reg 1 ≠ 0xFF ∧ State.reset.reg 1 = State.reset.reg 2 ∧
    (start [(1, 0xFF)]).reg 1 ≠ (start [(1, 0xFF)]).reg 2 := by decide

/-- AddSetsTheCarry, SubtractsSetTheStrictlyGreaterFlag, ShiftsMoveVxByOne, DrawingTwiceRestoresTheScreen: registers other than 15, on
both sides of the flag. -/
theorem witness_not_VF : (0 : Reg) ≠ 15 ∧ (14 : Reg) ≠ 15 ∧
    ¬((start [(0, 0xFF)]).reg 0).toNat + ((start [(0, 0xFF)]).reg 14).toNat > 255 ∧
    ((start [(0, 0xFF), (14, 1)]).reg 0).toNat + ((start [(0, 0xFF), (14, 1)]).reg 14).toNat > 255 := by decide

/-- RegisterFifteenAsOperand: as `x`, as `y`. -/
theorem witness_VF : ((15 : Reg) = 15 ∨ (0 : Reg) = 15) ∧ ((0 : Reg) = 15 ∨ (15 : Reg) = 15) := by decide

/-- DrawTogglesThePixelsUnderTheSprite, DrawFlagsACollision: the least and the greatest height. -/
theorem witness_height : 0 < 16 ∧ 15 < 16 := by decide

/-- DrawTogglesThePixelsUnderTheSprite: glyph 0 of the font at column 63, row 31: its second pixel has wrapped to column 0, the one
before its first is not under it. -/
theorem witness_under_sprite : UnderSprite (start [(1, 63), (2, 31)] 0x50) 1 2 15 0 31 ∧
    ¬UnderSprite (start [(1, 63), (2, 31)] 0x50) 1 2 15 62 31 := by
  refine ⟨⟨0, 1, by decide, by decide, by decide, by decide, by decide⟩, ?_⟩
  rintro ⟨r, c, _, hc, _, hx, _⟩
  have h : ((start [(1, 63), (2, 31)] 0x50).reg 1).toNat = 63 := by decide
  rw [h] at hx
  have e : (62 : Fin 64).val = 62 := rfl
  omega

/-- DrawFlagsACollision: a set pixel under the sprite; and no set pixel on an empty screen. -/
theorem witness_collision :
    (UnderSprite { start [] 0x50 with gfx := Vector.replicate 32 1 } 1 2 1 0 0 ∧
      Frame.at ({ start [] 0x50 with gfx := Vector.replicate 32 1 } : State).gfx 0 0 = true) ∧
    ∀ px py, UnderSprite (start [] 0x50) 1 2 1 px py → Frame.at (start [] 0x50).gfx px py = false := by
  refine ⟨⟨⟨0, 0, by decide, by decide, by decide, by decide, by decide⟩, by decide⟩, ?_⟩
  intro px py _
  exact Frame.at_blank px py

/-- KeySkipsReadTheSnapshot: key 15 alone pressed, read with FF and with 0E. -/
theorem witness_key : ({ State.reset with key := 0x8000 } : State).key.getLsbD (0xFF % 16) = true ∧
    ({ State.reset with key := 0x8000 } : State).key.getLsbD (0x0E % 16) = false := by decide

/-- KeyWaitStoresTheLeastKey: no key; key 0 of all; key 15 alone. -/
theorem witness_key_wait : State.reset.key = 0 ∧
    (0 < 16 ∧ (0xFFFF : BitVec 16).getLsbD 0 = true ∧ ∀ j < 0, (0xFFFF : BitVec 16).getLsbD j = false) ∧
    (15 < 16 ∧ (0x8000 : BitVec 16).getLsbD 15 = true ∧ ∀ j < 15, (0x8000 : BitVec 16).getLsbD j = false) := by decide

/-- RegisterDumpStoresUpToVx, RegisterLoadReadsUpToVx: the first and the last register of the block. -/
theorem witness_block : (0 : Reg) ≤ 15 ∧ (15 : Reg) ≤ 15 ∧ (0 : Reg) ≤ 0 := by decide

/-- StoreIsSeenByTheNextFetch: the least `x`; the store onto the next instruction, and across the top of memory. -/
theorem witness_store_next : 1 ≤ (1 : Reg).val ∧ (start [] 0x202).I.toNat % 4096 = ((start [] 0x202).pc.toNat + 2) % 4096 ∧
    ({ State.reset with I := 0xFFF, pc := 0xFFD } : State).I.toNat % 4096 =
      (({ State.reset with I := 0xFFF, pc := 0xFFD } : State).pc.toNat + 2) % 4096 ∧
    ({ State.reset with I := 0, pc := 0xFFFE } : State).I.toNat % 4096 =
      (({ State.reset with I := 0, pc := 0xFFFE } : State).pc.toNat + 2) % 4096 := by decide

/-- The event statements (Tick, KeyWrite, DrawAck, Reset): a schedule with the event at its head. -/
theorem witness_events (e : HostEvent) : ({ State.reset with schedule := [e, .step] } : State).schedule = e :: [.step] := rfl

/-- The nominal schedule of R10, for ever: keys, two Steps, a Tick, a DrawAck. -/
def nominal : Afterwards := .repeats (.keyWrite 0x8000) [.step, .step, .tick, .drawAck]

/-- R10: after one round of the nominal schedule from Reset the keys are set, two words have run, and the same round comes again. -/
theorem test_nominal_round : (match Host.Core.run Sys2Proof.core 5 { State.reset with afterwards := nominal, delayTimer := 2 } with
    | .next t => some (t.key, t.pc, t.delayTimer, t.schedule, t.afterwards)
    | .fault _ | .refused _ => none) = some (0x8000, 0x204, 1, [], nominal) := by decide

/-- EndlessScheduleUnrolls, FreeHostIssuesEveryTurn, RepeatedEventsComeRoundForEver: the three plans on an empty schedule, and the first
and the last place of a round. -/
theorem witness_endless : State.reset.schedule = [] ∧ State.reset.afterwards = .repeats .step [] ∧
    ({ State.reset with afterwards := nominal } : State).afterwards =
      .repeats (.keyWrite 0x8000) (.step :: [.step, .tick, .drawAck]) ∧
    ({ State.reset with afterwards := .free 0 } : State).afterwards = .free 0 ∧
    0 < [HostEvent.step, .tick].length ∧ 1 < [HostEvent.step, .tick].length := by decide

/-- KeyWriteReplacesTheSnapshot: the bounds of the key index. -/
theorem witness_key_index : 0 < 16 ∧ 15 < 16 := by decide

/-- LoadCopiesAnImageThatFits: the greatest image that fits, the empty one, and the least that does not fit. -/
theorem witness_load : (List.replicate 3584 (0xFF : Byte)).length ≤ 3584 ∧ ([] : List Byte).length ≤ 3584 ∧
    3584 < (List.replicate 3585 (0xFF : Byte)).length := by
  rw [List.length_replicate, List.length_replicate]
  exact ⟨Nat.le_refl _, Nat.zero_le _, by decide⟩

/-- EveryEventKeepsTheInvariant: the state after Reset, which steps. -/
theorem witness_invariant : StateInvariant State.reset ∧ ∃ t, step State.reset = .next t := by
  refine ⟨⟨State.reset_memory_wf, ?_, ?_, ?_, ?_⟩, _, step_idle rfl rfl⟩ <;> simp [State.reset]

/-- EveryEventKeepsTheInvariant: a state in which both reports are held. -/
theorem witness_invariant_reports : StateInvariant { State.reset with
    cond := some (.stackOverflow 0), faultMark := some (.stackOverflow 0), loadResult := some (.programTooLarge 3585) } := by
  refine ⟨State.reset_memory_wf, ?_, ?_, ?_, ?_⟩ <;> simp [Condition.atRunTime]

/-- HighIndexBitsAreNeverSeen: two different states. -/
theorem witness_high_index : SameButHighIndex { State.reset with I := 0x0300 } { State.reset with I := 0xF300 } ∧
    ({ State.reset with I := 0x0300 } : State) ≠ { State.reset with I := 0xF300 } := by
  refine ⟨⟨rfl, rfl⟩, ?_⟩
  intro h
  exact absurd (congrArg State.I h) (by decide)

/-- PoppedEntriesAreNeverSeen: two different states. -/
theorem witness_popped : SameButPopped State.reset { State.reset with stack := Vector.replicate 16 1 } ∧
    State.reset ≠ { State.reset with stack := Vector.replicate 16 1 } := by
  refine ⟨⟨rfl, fun j h => absurd h (Nat.not_lt_zero _)⟩, ?_⟩
  intro h
  exact absurd (congrArg State.stack h) (by decide)

/-- RegistersChangeOnlyAsDestinations: a flag writer, a register that is neither its destination nor VF, and one that writes no flag
with VF itself. -/
theorem witness_registers : (∃ t, exec (.addReg 1 2) State.reset = .next t) ∧ (3 : Reg) ∉ destRegs (.addReg 1 2) ∧
    (∃ t, exec (.orReg 1 2) State.reset = .next t) ∧ (15 : Reg) ∉ destRegs (.orReg 1 2) ∧
    writesFlag (.orReg 1 2) = false ∧ (15 : Reg) ∉ destRegs (.loadRegs 14) :=
  ⟨⟨_, rfl⟩, by decide, ⟨_, rfl⟩, by decide, by decide, by decide⟩

/-- MemoryChangesOnlyByStores: an address at each side of the stored bytes, which wrap. -/
theorem witness_stores : (∃ t, exec (.storeBcd 0) (start [] 0xFFE) = .next t) ∧ 0xFFD ∉ storedBytes (.storeBcd 0) (start [] 0xFFE) ∧
    0xFFE ∈ storedBytes (.storeBcd 0) (start [] 0xFFE) ∧ 0 ∈ storedBytes (.storeBcd 0) (start [] 0xFFE) ∧
    1 ∉ storedBytes (.storeBcd 0) (start [] 0xFFE) :=
  ⟨⟨_, rfl⟩, by decide, by decide, by decide, by decide⟩

/-- SpecialRegistersHaveTheirWriters: each register changed by one of its writers. -/
theorem witness_special : ((after 0x00E0 State.reset).map (·.drawFlag) ≠ some State.reset.drawFlag) ∧
    ((after 0x00E0 { State.reset with gfx := Vector.replicate 32 1 }).map (·.gfx) ≠ some (Vector.replicate 32 1)) ∧
    ((after 0xF115 (start [(1, 7)])).map (·.delayTimer) ≠ some 0) ∧ ((after 0xF118 (start [(1, 7)])).map (·.soundTimer) ≠ some 0) ∧
    ((after 0x2300 State.reset).map (·.stack) ≠ some State.reset.stack) ∧ ((after 0x2300 State.reset).map (·.sp) ≠ some 0) ∧
    ((after 0xA300 State.reset).map (·.I) ≠ some 0) ∧
    ((after 0xF055 { State.reset with incrementI := true }).map (·.I) ≠ some 0) := by decide

/-- ConditionsComeFromCallAndReturn: each of the three outcomes. -/
theorem witness_conditions : (∃ t, exec .cls State.reset = .next t ∧ t.cond = State.reset.cond) ∧
    (∃ t, exec .ret State.reset = .next t ∧ t.cond = some (.stackUnderflow 0x200)) ∧
    ∃ t, exec (.call 0) { State.reset with sp := 16 } = .next t ∧ t.cond = some (.stackOverflow 0x200) :=
  ⟨⟨_, rfl, rfl⟩, ⟨_, rfl, rfl⟩, ⟨_, rfl, rfl⟩⟩

/-- ProgramCounterChangesAsListed: a next state for each kind of change. -/
theorem witness_pc : (after 0x6005 State.reset).map (·.pc) = some 0x202 ∧ (after 0x3000 State.reset).map (·.pc) = some 0x204 ∧
    (after 0x1FFF State.reset).map (·.pc) = some 0xFFF ∧ (after 0xBFFF (start [(0, 0xFF)])).map (·.pc) = some 0x10FE ∧
    (after 0x00EE { State.reset with sp := 16, stack := Vector.replicate 16 0x333 }).map (·.pc) = some 0x333 ∧
    (after 0x00EE State.reset).map (·.pc) = some 0x200 := by decide

/-- FirstConditionStaysMarked: a marked state that raises another condition. -/
theorem witness_marked : ∃ t, step { State.reset with faultMark := some (.stackUnderflow 0) } = .next t ∧
    t.faultMark = some (.stackUnderflow 0) := ⟨_, rfl, by decide⟩

/-- NoEventChangesTheConfiguration: an event that answers a next state, with the quirk on. -/
theorem witness_configuration : ∃ t, step { State.reset with incrementI := true, schedule := [.reset] } = .next t :=
  ⟨_, rfl⟩

end Sys2Proof.Tests
end

/-! # Proofs: the host's endless schedules (00_scope.md R8, R10) -/

namespace Sys2Proof.Machine

/-! ## Every event is answered with a next state (60_exceptions.md R200) -/

theorem exec_answers_next (i : Instr) (s : State) : ∃ t, exec i s = .next t := by
  cases i
  case ret =>
    by_cases h : 0 < s.sp.val
    · exact ⟨_, execRet_pop h⟩
    · exact ⟨_, execRet_empty (Fin.ext (Nat.eq_zero_of_not_pos h))⟩
  case call nnn =>
    by_cases h : s.sp.val < 16
    · exact ⟨_, execCall_push nnn h⟩
    · have hfull : s.sp.val = 16 := by omega
      exact ⟨_, execCall_full nnn (Fin.ext hfull)⟩
  case ldVxK x =>
    cases h : s.firstKey with
    | none => exact ⟨_, execLdVxK_none x h⟩
    | some k => exact ⟨_, execLdVxK_some x h⟩
  all_goals exact ⟨_, rfl⟩

theorem engineStep_answers_next (s : State) : ∃ t, engineStep s = .next t := by
  cases h : decodeWord s.fetch with
  | ok i => rw [engineStep_ok h]; exact exec_answers_next i _
  | error e => exact ⟨_, engineStep_error h⟩

theorem runEvent_answers_next (e : HostEvent) (s : State) : ∃ t, runEvent e s = .next t := by
  cases e
  case step => exact engineStep_answers_next s
  all_goals exact ⟨_, rfl⟩

theorem step_answers_next (s : State) : ∃ t, step s = .next t :=
  runEvent_answers_next s.nextEvent s.takeEvent

/-! ## The run on an empty schedule -/

theorem run_succ_of_step {M : Host.Core} {s u : M.State} (k : Nat) (h : M.step s = .next u) :
    M.run (k + 1) s = M.run k u := by
  rw [Host.Core.run, h]

theorem State.nextEvent_of_empty_schedule {s : State} (h : s.schedule = []) : s.nextEvent = s.afterwards.next := by
  simp [State.nextEvent, h]

/-- With an empty schedule an event leaves the schedule empty and moves the plan on by one event. -/
theorem step_moves_plan {s t : State} (hs : s.schedule = []) (h : step s = .next t) :
    t.schedule = [] ∧ t.afterwards = s.afterwards.later := by
  obtain ⟨hsched, hplan⟩ := step_keeps_plan h
  exact ⟨by simpa [hs] using hsched, by simpa [hs] using hplan⟩

/-- Every run on an empty schedule goes on for ever, and `k` events move the plan on `k` times. -/
theorem run_moves_plan (k : Nat) {s : State} (hs : s.schedule = []) :
    ∃ t : State, Host.Core.run Sys2Proof.core k s = .next t ∧ t.schedule = [] ∧
      t.afterwards = Afterwards.later^[k] s.afterwards := by
  induction k generalizing s with
  | zero => exact ⟨s, rfl, hs, rfl⟩
  | succ k ih =>
    obtain ⟨u, hu⟩ := step_answers_next s
    obtain ⟨husched, huplan⟩ := step_moves_plan hs hu
    obtain ⟨t, hrun, hsched, hplan⟩ := ih husched
    refine ⟨t, (run_succ_of_step (M := Sys2Proof.core) k hu).trans hrun, hsched, ?_⟩
    rw [hplan, huplan, Function.iterate_succ_apply]

/-! ## The two kinds of plan, moved on -/

theorem Afterwards.iterate_later_free (k n : Nat) : Afterwards.later^[k] (.free n) = .free (n + k) := by
  induction k with
  | zero => rfl
  | succ k ih => rw [Function.iterate_succ_apply', ih]; rfl

/-- A repeating plan is its list of events, and moving it on rotates the list. -/
theorem Afterwards.iterate_later_repeats (k : Nat) (e : HostEvent) (es : List HostEvent) :
    ∃ f fs, Afterwards.later^[k] (.repeats e es) = .repeats f fs ∧ (e :: es).rotate k = f :: fs := by
  induction k generalizing e es with
  | zero => exact ⟨e, es, rfl, List.rotate_zero _⟩
  | succ k ih =>
    rw [Function.iterate_succ_apply, List.rotate_cons_succ]
    cases es with
    | nil => exact ih e []
    | cons f fs => exact ih f (fs ++ [e])

/-- After `k` events a repeating plan is at place `k` of its list, counted round and round. -/
theorem Afterwards.next_iterate_later_repeats (k : Nat) (e : HostEvent) (es : List HostEvent) :
    (Afterwards.later^[k] (.repeats e es)).next = (e :: es)[k % (e :: es).length]'(Nat.mod_lt _ (Nat.succ_pos _)) := by
  obtain ⟨f, fs, hplan, hrot⟩ := Afterwards.iterate_later_repeats k e es
  have hhead := List.getElem_rotate (e :: es) k 0 (by simp)
  simp only [hrot, Nat.zero_add] at hhead
  rw [hplan, ← hhead]
  rfl

/-! ## The obligations -/

/-- Settles O57: `k` events move the free plan on `k` turns. -/
theorem freeHostIssuesEveryTurn : Obligations.FreeHostIssuesEveryTurn := by
  intro s n k hs ha
  obtain ⟨t, hrun, hsched, hplan⟩ := run_moves_plan k hs
  rw [ha, Afterwards.iterate_later_free] at hplan
  refine ⟨t, hrun, hsched, hplan, ?_⟩
  rw [State.nextEvent_of_empty_schedule hsched, hplan]
  rfl

/-- Settles O58: `rounds * length + j` events move the repeating plan to place `j`, since whole rounds rotate the list onto itself. -/
theorem repeatedEventsComeRoundForEver : Obligations.RepeatedEventsComeRoundForEver := by
  intro s e es rounds j h hs ha
  obtain ⟨t, hrun, hsched, hplan⟩ := run_moves_plan (rounds * (e :: es).length + j) hs
  have hplace : (rounds * (e :: es).length + j) % (e :: es).length = j := by
    rw [Nat.mul_add_mod_self_right, Nat.mod_eq_of_lt h]
  refine ⟨t, hrun, hsched, ?_⟩
  rw [State.nextEvent_of_empty_schedule hsched, hplan, ha, Afterwards.next_iterate_later_repeats]
  simp only [hplace]

/-- Settles O56: `step_unroll` at each of the three plans. -/
theorem endlessScheduleUnrolls : Obligations.EndlessScheduleUnrolls := by
  intro s hs
  refine ⟨fun e ha => ?_, fun e f es ha => ?_, fun n ha => ?_⟩
  all_goals rw [step_unroll hs]; simp only [ha, Afterwards.next, Afterwards.later]

end Sys2Proof.Machine

/-! # Proofs: what no program can see (10_state.md R23, R24) -/

namespace Sys2Proof.Machine

/-- Both outcomes are next states, and `R` holds between them. -/
def BothAnswer (R : State → State → Prop) (o o' : Host.Outcome State Fault Refusal) : Prop :=
  ∃ s t, o = .next s ∧ o' = .next t ∧ R s t

/-- Replaces the stack's entries, `sp` kept. -/
def State.setStack (s : State) (st : Stack) : State := { s with stack := st }

/-! ## The events other than a Step see neither `I` nor the stack -/

theorem State.hostLoad_setI_setStack (s : State) (image : List Byte) (w : Word) (st : Stack) :
    ((s.setI w).setStack st).hostLoad image = ((s.hostLoad image).setI w).setStack st := by
  unfold State.hostLoad
  split <;> rfl

/-- A relation between states that differ in `I` and in stack entries alone, one that speaks of no field but `I`, `stack` and `sp`. -/
structure HidesIndexOrStack (R : State → State → Prop) : Prop where
  refl : ∀ s, R s s
  same : ∀ {s t}, R s t → ∃ w st, t = (s.setI w).setStack st
  moves : ∀ {s u w st}, R s ((s.setI w).setStack st) → u.I = s.I → u.stack = s.stack → u.sp = s.sp → R u ((u.setI w).setStack st)

section
variable {R : State → State → Prop} (hR : HidesIndexOrStack R)
  (hexec : ∀ i s t, R s t → BothAnswer R (exec i s) (exec i t)) {s t : State} (h : R s t)
include hR hexec h

/-- The fetch sees neither, so a Step keeps the relation if every instruction does. -/
theorem HidesIndexOrStack.engineStep_keeps : BothAnswer R (engineStep s) (engineStep t) := by
  obtain ⟨w, st, rfl⟩ := hR.same h
  have hfetch : ((s.setI w).setStack st).fetch = s.fetch := rfl
  cases hd : decodeWord s.fetch with
  | ok i =>
    rw [engineStep_ok hd, engineStep_ok (hfetch ▸ hd)]
    exact hexec i _ _ (hR.moves (u := s.beginStep) h rfl rfl rfl)
  | error e =>
    exact ⟨_, _, engineStep_error hd, engineStep_error (hfetch ▸ hd),
      hR.moves (u := s.beginStep.unknownOpcode s.fetch) h rfl rfl rfl⟩

theorem HidesIndexOrStack.runEvent_keeps (e : HostEvent) : BothAnswer R (runEvent e s) (runEvent e t) := by
  obtain ⟨w, st, rfl⟩ := hR.same h
  cases e with
  | step => exact hR.engineStep_keeps hexec h
  | reset => exact ⟨_, _, rfl, rfl, hR.refl s.hostReset⟩
  | load image =>
    refine ⟨_, _, rfl, rfl, ?_⟩
    rw [State.hostLoad_setI_setStack]
    exact hR.moves h (s.hostLoad_I image) (s.hostLoad_stack image) (s.hostLoad_sp image)
  | keyWrite k => exact ⟨_, _, rfl, rfl, hR.moves (u := s.hostKeyWrite k) h rfl rfl rfl⟩
  | tick => exact ⟨_, _, rfl, rfl, hR.moves (u := s.hostTick) h rfl rfl rfl⟩
  | drawAck => exact ⟨_, _, rfl, rfl, hR.moves (u := s.hostDrawAck) h rfl rfl rfl⟩

/-- The host's plan does not see them either: it is enough that every instruction keeps the relation. -/
theorem HidesIndexOrStack.step_keeps : BothAnswer R (step s) (step t) := by
  obtain ⟨w, st, rfl⟩ := hR.same h
  exact hR.runEvent_keeps hexec (hR.moves (u := s.takeEvent) h rfl rfl rfl) s.nextEvent

end

/-! ## The bits of `I` above 12 (R23, R51) -/

theorem sameButHighIndex_iff {s t : State} :
    SameButHighIndex s t ↔ ∃ w : Word, t = s.setI w ∧ w.toNat % 4096 = s.I.toNat % 4096 := by
  constructor
  · rintro ⟨h, hw⟩
    exact ⟨t.I, by rw [← h]; rfl, hw⟩
  · rintro ⟨w, rfl, hw⟩
    exact ⟨rfl, hw⟩

theorem hidesIndexOrStack_sameButHighIndex : HidesIndexOrStack SameButHighIndex where
  refl _ := ⟨rfl, rfl⟩
  same {s _} h := by
    obtain ⟨w, rfl, -⟩ := sameButHighIndex_iff.1 h
    exact ⟨w, s.stack, rfl⟩
  moves {s u w st} h hI hstack _ := by
    obtain ⟨hsame, hw⟩ := h
    have hst : st = u.stack := hstack ▸ congrArg State.stack hsame
    exact sameButHighIndex_iff.2 ⟨w, by rw [hst]; rfl, hI ▸ hw⟩

/-- Two writes of `I` that agree modulo 4096, each at the end of an instruction. -/
theorem sameButHighIndex_setI_advance (u : State) {v w : Word} (h : w.toNat % 4096 = v.toNat % 4096) :
    SameButHighIndex (u.setI v).advance (u.setI w).advance :=
  ⟨rfl, h⟩

theorem State.setI_setI (s : State) (v w : Word) : (s.setI v).setI w = s.setI w := rfl

theorem State.setI_setRegs (s : State) (w : Word) (r : RegFile) : (s.setI w).setRegs r = (s.setRegs r).setI w := rfl

theorem wrapAddr_congr {a b : Nat} (h : a % 4096 = b % 4096) (k : Nat) : wrapAddr a k = wrapAddr b k :=
  Nat.ModEq.add_right k h

/-- A block goes to the addresses its base has modulo 4096 (R51). -/
theorem Memory.writeBlock_congr {a b : Nat} (h : a % 4096 = b % 4096) (m : Memory) (vs : List Byte) :
    m.writeBlock a vs = m.writeBlock b vs := by
  induction vs generalizing a b m with
  | nil => rfl
  | cons v vs ih =>
    rw [Memory.writeBlock, Memory.writeBlock, wrapAddr_congr h]
    exact ih (Nat.ModEq.add_right 1 h) _

/-- Addition modulo 65536 keeps agreement modulo 4096. -/
theorem toNat_add_mod_congr {a b : Word} (h : a.toNat % 4096 = b.toNat % 4096) (v : Word) :
    (a + v).toNat % 4096 = (b + v).toNat % 4096 := by
  simp only [BitVec.toNat_add]
  omega

section
variable {s : State} {w : Word} (hw : w.toNat % 4096 = s.I.toNat % 4096)
include hw

theorem State.ea_setI : (s.setI w).ea = s.ea :=
  funext (wrapAddr_congr hw)

theorem State.drawing_setI (x y : Reg) (n : Nat) : (s.setI w).drawing x y n = s.drawing x y n := by
  have hrows : (s.setI w).spriteRow = s.spriteRow := by
    funext r
    simp [State.spriteRow, State.ea_setI hw]
  simp [State.drawing, hrows]

theorem State.loadedRegs_setI (x : Reg) : (s.setI w).loadedRegs x = s.loadedRegs x := by
  simp [State.loadedRegs, State.ea_setI hw]

theorem State.writeBlock_setI (vs : List Byte) :
    (s.setI w).writeBlock w.toNat vs = (s.writeBlock s.I.toNat vs).setI w := by
  simp [State.writeBlock, State.setI, Memory.writeBlock_congr hw]

theorem State.indexAfter_setI (x : Reg) : ((s.setI w).indexAfter x).toNat % 4096 = (s.indexAfter x).toNat % 4096 := by
  unfold State.indexAfter
  cases hq : s.incrementI with
  | true => simpa [hq, -BitVec.toNat_add] using toNat_add_mod_congr hw (BitVec.ofNat 16 (x.val + 1))
  | false => simpa [hq] using hw

/-- Every instruction uses `I` through addresses modulo 4096 (R51), or adds to it, or replaces it. -/
theorem exec_setI (i : Instr) : BothAnswer SameButHighIndex (exec i s) (exec i (s.setI w)) := by
  cases i with
  | ret =>
    by_cases hsp : 0 < s.sp.val
    · exact ⟨_, _, execRet_pop hsp, execRet_pop (s := s.setI w) hsp, rfl, hw⟩
    · have hempty : s.sp = 0 := by omega
      exact ⟨_, _, execRet_empty hempty, execRet_empty (s := s.setI w) hempty, rfl, hw⟩
  | call nnn =>
    by_cases hsp : s.sp.val < 16
    · exact ⟨_, _, execCall_push nnn hsp, execCall_push (s := s.setI w) nnn hsp, rfl, hw⟩
    · have hfull : s.sp = 16 := by omega
      exact ⟨_, _, execCall_full nnn hfull, execCall_full (s := s.setI w) nnn hfull, rfl, hw⟩
  | ldVxK x =>
    cases hk : s.firstKey with
    | none => exact ⟨_, _, execLdVxK_none x hk, execLdVxK_none (s := s.setI w) x hk, rfl, hw⟩
    | some k => exact ⟨_, _, execLdVxK_some x hk, execLdVxK_some (s := s.setI w) x hk, rfl, hw⟩
  | ldIndex nnn => exact ⟨_, _, rfl, rfl, rfl, rfl⟩
  | ldFont x => exact ⟨_, _, rfl, rfl, rfl, rfl⟩
  | addIndex x => exact ⟨_, _, rfl, rfl, sameButHighIndex_setI_advance s (toNat_add_mod_congr hw _)⟩
  | drw x y n =>
    refine ⟨_, _, rfl, rfl, ?_⟩
    rw [State.drawing_setI hw]
    exact ⟨rfl, hw⟩
  | storeBcd x =>
    refine ⟨_, _, rfl, rfl, ?_⟩
    rw [State.setI_I, State.writeBlock_setI hw]
    exact ⟨rfl, hw⟩
  | dumpRegs x =>
    refine ⟨_, _, rfl, rfl, ?_⟩
    rw [State.setI_I, State.writeBlock_setI hw, State.setI_setI]
    exact sameButHighIndex_setI_advance _ (State.indexAfter_setI hw x)
  | loadRegs x =>
    refine ⟨_, _, rfl, rfl, ?_⟩
    rw [State.loadedRegs_setI hw, State.setI_setRegs, State.setI_setI]
    exact sameButHighIndex_setI_advance _ (State.indexAfter_setI hw x)
  | _ => exact ⟨_, _, rfl, rfl, rfl, hw⟩

end

/-- Settles O47: no event but an instruction sees `I`, and `exec_setI` says what the instructions see of it. -/
theorem highIndexBitsAreNeverSeen : Obligations.HighIndexBitsAreNeverSeen := by
  intro s t h
  refine hidesIndexOrStack_sameButHighIndex.step_keeps (fun i s t h => ?_) h
  obtain ⟨w, rfl, hw⟩ := sameButHighIndex_iff.1 h
  exact exec_setI hw i

/-! ## Stack entries at and above `sp` (R24, D27) -/

theorem sameButPopped_iff {s t : State} :
    SameButPopped s t ↔ ∃ st : Stack, t = s.setStack st ∧ ∀ j : Fin 16, j.val < s.sp.val → st[j] = s.stack[j] := by
  constructor
  · rintro ⟨h, hst⟩
    exact ⟨t.stack, by rw [← h]; rfl, hst⟩
  · rintro ⟨st, rfl, hst⟩
    exact ⟨rfl, hst⟩

/-- What FX65 does to the state does not meet the stack. -/
theorem State.setRegs_setI_advance_setStack (s : State) (st : Stack) (r : RegFile) (w : Word) :
    (((s.setStack st).setRegs r).setI w).advance = ((s.setRegs r).setI w).advance.setStack st := rfl

theorem hidesIndexOrStack_sameButPopped : HidesIndexOrStack SameButPopped where
  refl _ := ⟨rfl, fun _ _ => rfl⟩
  same {s _} h := by
    obtain ⟨st, rfl, -⟩ := sameButPopped_iff.1 h
    exact ⟨s.I, st, rfl⟩
  moves {s u w st} h hI hstack hsp := by
    obtain ⟨hsame, hst⟩ := h
    have hw : w = u.I := hI ▸ congrArg State.I hsame
    exact sameButPopped_iff.2 ⟨st, by rw [hw]; rfl, by rw [hstack, hsp]; exact hst⟩

section
variable {s : State} {st : Stack} (hst : ∀ j : Fin 16, j.val < s.sp.val → st[j] = s.stack[j])
include hst

theorem sameButPopped_setStack {u : State} (hstack : u.stack = s.stack) (hsp : u.sp = s.sp) :
    SameButPopped u (u.setStack st) :=
  sameButPopped_iff.2 ⟨st, rfl, by rw [hstack, hsp]; exact hst⟩

theorem State.top_setStack (h : 0 < s.sp.val) : (s.setStack st).top h = s.top h :=
  hst ⟨s.sp.val - 1, by omega⟩ (Nat.sub_lt h Nat.one_pos)

theorem sameButPopped_pop (a : Word) : SameButPopped (s.pop.setPc a) ((s.setStack st).pop.setPc a) :=
  ⟨rfl, fun j hj => hst j (Nat.lt_of_lt_of_le hj (Nat.sub_le _ _))⟩

/-- A push overwrites the entry at `sp` in both, so they agree below the new `sp`. -/
theorem sameButPopped_push (a b : Word) (h : s.sp.val < 16) :
    SameButPopped ((s.push a h).setPc b) (((s.setStack st).push a h).setPc b) := by
  refine ⟨rfl, fun j hj => ?_⟩
  have hle : j.val < s.sp.val + 1 := hj
  change (st.set s.sp.val a)[j.val] = (s.stack.set s.sp.val a)[j.val]
  rw [Vector.getElem_set, Vector.getElem_set]
  split
  · rfl
  · exact hst j (by omega)

/-- RET reads the entry below `sp`, CALL overwrites the entry at `sp`, and no other instruction has to do with entries. -/
theorem exec_setStack (i : Instr) : BothAnswer SameButPopped (exec i s) (exec i (s.setStack st)) := by
  cases i with
  | ret =>
    by_cases hsp : 0 < s.sp.val
    · refine ⟨_, _, execRet_pop hsp, execRet_pop (s := s.setStack st) hsp, ?_⟩
      rw [State.top_setStack hst]
      exact sameButPopped_pop hst _
    · have hempty : s.sp = 0 := by omega
      exact ⟨_, _, execRet_empty hempty, execRet_empty (s := s.setStack st) hempty, rfl, hst⟩
  | call nnn =>
    by_cases hsp : s.sp.val < 16
    · exact ⟨_, _, execCall_push nnn hsp, execCall_push (s := s.setStack st) nnn hsp, sameButPopped_push hst _ _ hsp⟩
    · have hfull : s.sp = 16 := by omega
      exact ⟨_, _, execCall_full nnn hfull, execCall_full (s := s.setStack st) nnn hfull, rfl, hst⟩
  | ldVxK x =>
    cases hk : s.firstKey with
    | none => exact ⟨_, _, execLdVxK_none x hk, execLdVxK_none (s := s.setStack st) x hk, rfl, hst⟩
    | some k => exact ⟨_, _, execLdVxK_some x hk, execLdVxK_some (s := s.setStack st) x hk, rfl, hst⟩
  | loadRegs x =>
    exact ⟨_, _, rfl, congrArg Host.Outcome.next (State.setRegs_setI_advance_setStack s st _ _),
      sameButPopped_setStack hst (by simp) (by simp)⟩
  | _ => exact ⟨_, _, rfl, rfl, rfl, hst⟩

end

/-- Settles O48: no event but an instruction sees stack entries, and `exec_setStack` says what RET and CALL see of them. -/
theorem poppedEntriesAreNeverSeen : Obligations.PoppedEntriesAreNeverSeen := by
  intro s t h
  refine hidesIndexOrStack_sameButPopped.step_keeps (fun i s t h => ?_) h
  obtain ⟨st, rfl, hst⟩ := sameButPopped_iff.1 h
  exact exec_setStack hst i

end Sys2Proof.Machine

/-! # Proofs: what an instruction may change (10_state.md R20 to R32) -/

namespace Sys2Proof.Machine

/-! ## The three instructions that branch -/

section
variable {s t : State}

theorem exec_ret_cases (h : exec .ret s = .next t) :
    (∃ hsp : 0 < s.sp.val, t = s.pop.setPc (s.top hsp)) ∨ (s.sp = 0 ∧ t = s.raise (.stackUnderflow s.pc)) := by
  by_cases hsp : 0 < s.sp.val
  · cases (execRet_pop hsp).symm.trans h
    exact .inl ⟨hsp, rfl⟩
  · have hempty : s.sp = 0 := by omega
    cases (execRet_empty hempty).symm.trans h
    exact .inr ⟨hempty, rfl⟩

theorem exec_call_cases {nnn : BitVec 12} (h : exec (.call nnn) s = .next t) :
    (∃ hsp : s.sp.val < 16, t = (s.push (s.pc + 2) hsp).setPc (zextAddr nnn)) ∨
    (s.sp = 16 ∧ t = (s.raise (.stackOverflow s.pc)).advance) := by
  by_cases hsp : s.sp.val < 16
  · cases (execCall_push nnn hsp).symm.trans h
    exact .inl ⟨hsp, rfl⟩
  · have hfull : s.sp = 16 := by omega
    cases (execCall_full nnn hfull).symm.trans h
    exact .inr ⟨hfull, rfl⟩

theorem exec_ldVxK_cases {x : Reg} (h : exec (.ldVxK x) s = .next t) :
    (s.firstKey = none ∧ t = s) ∨ ∃ k, s.firstKey = some k ∧ t = (s.setReg x (BitVec.ofNat 8 k)).advance := by
  cases hk : s.firstKey with
  | none =>
    cases (execLdVxK_none x hk).symm.trans h
    exact .inl ⟨rfl, rfl⟩
  | some k =>
    cases (execLdVxK_some x hk).symm.trans h
    exact .inr ⟨k, rfl, rfl⟩

end

/-! ## Frames of the remaining operations -/

section
variable (s : State)

theorem ChangesOnly.refl (c : Changes) : ChangesOnly c s s :=
  ⟨fun _ _ => rfl, fun _ _ => rfl, fun _ => rfl, fun _ => ⟨rfl, rfl⟩, fun _ => rfl, fun _ => rfl, fun _ => ⟨rfl, rfl⟩,
    fun _ => rfl, fun _ => ⟨rfl, rfl⟩, rfl, rfl, rfl, rfl, rfl⟩

theorem ChangesOnly.of_redraw (g : Frame) : ChangesOnly { screen := true } s (s.redraw g).advance :=
  { ChangesOnly.refl s { screen := true } with screen := nofun }

theorem ChangesOnly.of_redraw_setVF (g : Frame) (v : Byte) :
    ChangesOnly { regs := [15], screen := true } s ((s.redraw g).setVF v).advance :=
  { ChangesOnly.refl s { regs := [15], screen := true } with
    screen := nofun
    regs := fun r hr => (s.redraw g).reg_setReg_ne v (by simpa using hr) }

theorem ChangesOnly.of_setDelay (v : Byte) : ChangesOnly { delay := true } s (s.setDelay v).advance :=
  { ChangesOnly.refl s { delay := true } with delay := nofun }

theorem ChangesOnly.of_setSound (v : Byte) : ChangesOnly { sound := true } s (s.setSound v).advance :=
  { ChangesOnly.refl s { sound := true } with sound := nofun }

theorem ChangesOnly.of_maskedDraw (x : Reg) (nn rand : Byte) :
    ChangesOnly { regs := [x], draws := true } s (s.drawn.maskedDraw x nn rand) :=
  { ChangesOnly.refl s { regs := [x], draws := true } with
    draws := nofun
    regs := fun r hr => s.drawn.reg_setReg_ne (rand &&& nn) (by simpa using hr) }

theorem ChangesOnly.of_pop (a : Word) : ChangesOnly { stack := true, reports := true } s (s.pop.setPc a) :=
  { ChangesOnly.refl s { stack := true, reports := true } with stack := nofun }

theorem ChangesOnly.of_push (a b : Word) (h : s.sp.val < 16) :
    ChangesOnly { stack := true, reports := true } s ((s.push a h).setPc b) :=
  { ChangesOnly.refl s { stack := true, reports := true } with stack := nofun }

/-- The two instructions that may raise a condition are the two that use the stack. -/
theorem ChangesOnly.of_raise_stack (c : Condition) (a : Word) :
    ChangesOnly { stack := true, reports := true } s ((s.raise c).setPc a) :=
  { ChangesOnly.of_raise s c a with stack := nofun }

/-- A block at `I` goes to `ea(0)`, `ea(1)`, ... (R51, R56). -/
theorem ChangesOnly.of_writeBlock (vs : List Byte) :
    ChangesOnly { bytes := (List.range vs.length).map s.ea } s (s.writeBlock s.I.toNat vs).advance :=
  { ChangesOnly.refl s { bytes := (List.range vs.length).map s.ea } with
    bytes := fun a ha => s.read_writeBlock_outside s.I.toNat a vs fun k hk he =>
      ha (List.mem_map.2 ⟨k, List.mem_range.2 hk, he.symm⟩) }

/-- Without the quirk FX55 and FX65 leave `I` alone (R32). -/
theorem State.indexAfter_of_not_incrementI {s : State} (x : Reg) (h : s.incrementI = false) : s.indexAfter x = s.I := by
  simp [State.indexAfter, h]

theorem ChangesOnly.of_dump (x : Reg) :
    ChangesOnly { bytes := (List.range (x.val + 1)).map s.ea, index := s.incrementI } s
      ((s.writeBlock s.I.toNat (s.regsUpTo x)).setI (s.indexAfter x)).advance :=
  { ChangesOnly.of_writeBlock s (s.regsUpTo x) with
    bytes := by
      rw [← s.regsUpTo_length x]
      exact (ChangesOnly.of_writeBlock s (s.regsUpTo x)).bytes
    index := State.indexAfter_of_not_incrementI x }

theorem ChangesOnly.of_setRegs_setI {rs : List Reg} {writes : Bool} {v : RegFile} {w : Word}
    (hv : ∀ r, r ∉ rs → v[r] = s.reg r) (hw : writes = false → w = s.I) :
    ChangesOnly { regs := rs, index := writes } s ((s.setRegs v).setI w).advance :=
  { ChangesOnly.refl s { regs := rs, index := writes } with
    regs := hv
    index := hw }

theorem State.loadedRegs_unchanged (x r : Reg) (hr : r ∉ destRegs (.loadRegs x)) : (s.loadedRegs x)[r] = s.reg r := by
  have hle : ¬ r ≤ x := by simpa [destRegs] using hr
  exact (s.loadedRegs_get x r).trans (if_neg hle)

end

/-! ## The table of changes -/

/-- The instructions that write the framebuffer and `draw_flag` (R29, R31). -/
def writesScreen : Instr → Bool
  | .cls | .drw _ _ _ => true
  | _ => false

/-- The instructions that write `I`; FX55 and FX65 only with the quirk (R23, R32). -/
def writesIndex (s : State) : Instr → Bool
  | .ldIndex _ | .addIndex _ | .ldFont _ => true
  | .dumpRegs _ | .loadRegs _ => s.incrementI
  | _ => false

/-- The two instructions that use the return stack (R24, R25); they are also the two that raise a condition (60_exceptions.md R203). -/
def usesStack : Instr → Bool
  | .ret | .call _ => true
  | _ => false

/-- The writer of the delay timer (R26). -/
def writesDelay : Instr → Bool
  | .ldDTVx _ => true
  | _ => false

/-- The writer of the sound timer (R27). -/
def writesSound : Instr → Bool
  | .ldSTVx _ => true
  | _ => false

/-- The instruction that draws a random byte (R36). -/
def drawsByte : Instr → Bool
  | .rnd _ _ => true
  | _ => false

/-- Everything instruction `i` may change in state `s`, besides `pc`. -/
def mayChange (i : Instr) (s : State) : Changes where
  regs := destRegs i ++ if writesFlag i then [15] else []
  bytes := storedBytes i s
  index := writesIndex s i
  stack := usesStack i
  delay := writesDelay i
  sound := writesSound i
  screen := writesScreen i
  draws := drawsByte i
  reports := usesStack i

/-- Every instruction keeps to the table. -/
theorem exec_changesOnly {i : Instr} {s t : State} (h : exec i s = .next t) : ChangesOnly (mayChange i s) s t := by
  cases i with
  | cls => cases h; exact .of_redraw s _
  | drw x y n => cases h; exact .of_redraw_setVF s _ _
  | ret =>
    obtain ⟨_, rfl⟩ | ⟨_, rfl⟩ := exec_ret_cases h
    · exact .of_pop s _
    · exact .of_raise_stack s _ s.pc
  | call nnn =>
    obtain ⟨hsp, rfl⟩ | ⟨_, rfl⟩ := exec_call_cases h
    · exact .of_push s _ _ hsp
    · exact .of_raise_stack s _ (s.pc + 2)
  | ldVxK x =>
    obtain ⟨_, rfl⟩ | ⟨k, _, rfl⟩ := exec_ldVxK_cases h
    · exact .refl t _
    · exact .of_setReg s _ _
  | jp nnn => cases h; exact .of_setPc s _
  | jpV0 nnn => cases h; exact .of_setPc s _
  | seImm x nn => cases h; exact .of_setPc s _
  | sneImm x nn => cases h; exact .of_setPc s _
  | seReg x y => cases h; exact .of_setPc s _
  | sneReg x y => cases h; exact .of_setPc s _
  | skp x => cases h; exact .of_setPc s _
  | sknp x => cases h; exact .of_setPc s _
  | addReg x y => cases h; exact .of_writeFlagged s _ _ _
  | subReg x y => cases h; exact .of_writeFlagged s _ _ _
  | shr x y => cases h; exact .of_writeFlagged s _ _ _
  | subnReg x y => cases h; exact .of_writeFlagged s _ _ _
  | shl x y => cases h; exact .of_writeFlagged s _ _ _
  | ldIndex nnn => cases h; exact .of_setI s _
  | addIndex x => cases h; exact .of_setI s _
  | ldFont x => cases h; exact .of_setI s _
  | rnd x nn => cases h; exact .of_maskedDraw s _ _ _
  | ldDTVx x => cases h; exact .of_setDelay s _
  | ldSTVx x => cases h; exact .of_setSound s _
  | storeBcd x => cases h; exact .of_writeBlock s (bcdDigits (s.reg x))
  | dumpRegs x => cases h; exact .of_dump s x
  | loadRegs x =>
    cases h
    exact .of_setRegs_setI s (fun r hr => s.loadedRegs_unchanged x r (mt (List.mem_append_left _) hr))
      (State.indexAfter_of_not_incrementI x)
  | _ => cases h; exact .of_setReg s _ _

/-! ## Registers, special registers, configuration -/

/-- Settles O49: the table's registers are the destinations, and VF for the flag writers. -/
theorem registersChangeOnlyAsDestinations : Obligations.RegistersChangeOnlyAsDestinations := by
  intro i s t r h hdest hflag
  refine (exec_changesOnly h).regs r ?_
  intro hr
  rcases List.mem_append.1 hr with hr | hr
  · exact hdest hr
  · split at hr
    · rename_i hwrites
      have hvf := hflag (List.mem_singleton.1 hr)
      simp [hvf] at hwrites
    · cases hr

theorem eq_of_writesScreen {i : Instr} (h : writesScreen i = true) : i = .cls ∨ ∃ x y n, i = .drw x y n := by
  unfold writesScreen at h
  split at h
  · exact .inl rfl
  · exact .inr ⟨_, _, _, rfl⟩
  · cases h

theorem eq_of_writesDelay {i : Instr} (h : writesDelay i = true) : ∃ x, i = .ldDTVx x := by
  unfold writesDelay at h
  split at h
  · exact ⟨_, rfl⟩
  · cases h

theorem eq_of_writesSound {i : Instr} (h : writesSound i = true) : ∃ x, i = .ldSTVx x := by
  unfold writesSound at h
  split at h
  · exact ⟨_, rfl⟩
  · cases h

theorem eq_of_usesStack {i : Instr} (h : usesStack i = true) : i = .ret ∨ ∃ nnn, i = .call nnn := by
  unfold usesStack at h
  split at h
  · exact .inl rfl
  · exact .inr ⟨_, rfl⟩
  · cases h

theorem eq_of_writesIndex {i : Instr} {s : State} (h : writesIndex s i = true) :
    (∃ nnn, i = .ldIndex nnn) ∨ (∃ x, i = .addIndex x) ∨ (∃ x, i = .ldFont x) ∨
      (s.incrementI = true ∧ ((∃ x, i = .dumpRegs x) ∨ ∃ x, i = .loadRegs x)) := by
  unfold writesIndex at h
  split at h
  · exact .inl ⟨_, rfl⟩
  · exact .inr (.inl ⟨_, rfl⟩)
  · exact .inr (.inr (.inl ⟨_, rfl⟩))
  · exact .inr (.inr (.inr ⟨h, .inl ⟨_, rfl⟩⟩))
  · exact .inr (.inr (.inr ⟨h, .inr ⟨_, rfl⟩⟩))
  · cases h

/-- RET lowers `sp` and leaves the entries (D27). -/
theorem exec_ret_stack {s t : State} (h : exec .ret s = .next t) : t.stack = s.stack := by
  obtain ⟨_, rfl⟩ | ⟨_, rfl⟩ := exec_ret_cases h <;> rfl

theorem exec_stack_changes {i : Instr} {s t : State} (h : exec i s = .next t) (hne : t.stack ≠ s.stack) :
    ∃ nnn, i = .call nnn := by
  have huses : usesStack i = true := eq_true_of_ne_false fun hf => hne ((exec_changesOnly h).stack hf).1
  rcases eq_of_usesStack huses with rfl | hcall
  · exact absurd (exec_ret_stack h) hne
  · exact hcall

/-- Settles O51: what differs afterwards is in the table, and the table names the writers. -/
theorem specialRegistersHaveTheirWriters : Obligations.SpecialRegistersHaveTheirWriters := by
  intro i s t h
  have hc := exec_changesOnly h
  refine ⟨fun hne => eq_of_writesScreen (eq_true_of_ne_false fun hf => ?_),
    fun hne => eq_of_writesDelay (eq_true_of_ne_false fun hf => hne (hc.delay hf)),
    fun hne => eq_of_writesSound (eq_true_of_ne_false fun hf => hne (hc.sound hf)),
    exec_stack_changes h,
    fun hne => eq_of_usesStack (eq_true_of_ne_false fun hf => hne (hc.stack hf).2),
    fun hne => eq_of_writesIndex (eq_true_of_ne_false fun hf => hne (hc.index hf)),
    hc.key, hc.incrementI⟩
  obtain ⟨hgfx, hflag⟩ := hc.screen hf
  exact hne.elim (absurd hgfx) (absurd hflag)

/-- Settles O55: no host event writes `increment_i`, and no instruction does. -/
theorem noEventChangesTheConfiguration : Obligations.NoEventChangesTheConfiguration := by
  intro s t h
  rcases step_cases h with e | ⟨image, e⟩ | ⟨k, e⟩ | e | e | ⟨i, hi⟩ | e
  case inr.inl => rw [e]; exact s.takeEvent.hostLoad_incrementI image
  case inr.inr.inr.inr.inr.inl => exact (exec_changesOnly hi).incrementI
  all_goals rw [e]; rfl

/-! ## The program counter -/

theorem State.skipIf_pc_cases (s : State) (c : Bool) : (s.skipIf c).pc = s.pc + 2 ∨ (s.skipIf c).pc = s.pc + 4 := by
  cases c
  · exact .inl rfl
  · exact .inr rfl

theorem zextAddr_toNat (nnn : BitVec 12) : (zextAddr nnn).toNat = nnn.toNat :=
  BitVec.toNat_setWidth_of_le (by decide)

/-- The sum of JP V0 does not wrap: it is less than 256 + 4096. -/
theorem zextByte_add_zextAddr_toNat (v : Byte) (nnn : BitVec 12) :
    (zextByte v + zextAddr nnn).toNat = v.toNat + nnn.toNat := by
  have hv : (zextByte v).toNat = v.toNat := BitVec.toNat_setWidth_of_le (by decide)
  rw [BitVec.toNat_add, hv, zextAddr_toNat]
  omega

/-- The key wait finds none only in the empty snapshot (R162). -/
theorem State.key_eq_zero_of_firstKey {s : State} (h : s.firstKey = none) : s.key = 0 := by
  apply BitVec.eq_of_getLsbD_eq
  intro k hk
  simpa [State.pressed] using s.firstKey_eq_none.1 h k hk

/-- Settles O53: the branches of RET, CALL and the key wait, the six skips, the two jumps; every other instruction advances. -/
theorem programCounterChangesAsListed : Obligations.ProgramCounterChangesAsListed := by
  intro i s t h
  cases i with
  | seImm x nn => cases h; exact (s.skipIf_pc_cases _).imp_right fun h4 => .inl ⟨h4, .inl ⟨x, nn, .inl rfl⟩⟩
  | sneImm x nn => cases h; exact (s.skipIf_pc_cases _).imp_right fun h4 => .inl ⟨h4, .inl ⟨x, nn, .inr rfl⟩⟩
  | seReg x y => cases h; exact (s.skipIf_pc_cases _).imp_right fun h4 => .inl ⟨h4, .inr (.inl ⟨x, y, .inl rfl⟩)⟩
  | sneReg x y => cases h; exact (s.skipIf_pc_cases _).imp_right fun h4 => .inl ⟨h4, .inr (.inl ⟨x, y, .inr rfl⟩)⟩
  | skp x => cases h; exact (s.skipIf_pc_cases _).imp_right fun h4 => .inl ⟨h4, .inr (.inr ⟨x, .inl rfl⟩)⟩
  | sknp x => cases h; exact (s.skipIf_pc_cases _).imp_right fun h4 => .inl ⟨h4, .inr (.inr ⟨x, .inr rfl⟩)⟩
  | jp nnn => cases h; exact .inr (.inr (.inl ⟨nnn, zextAddr_toNat nnn, .inl rfl⟩))
  | jpV0 nnn => cases h; exact .inr (.inr (.inr (.inl ⟨nnn, zextByte_add_zextAddr_toNat _ nnn, rfl⟩)))
  | call nnn =>
    obtain ⟨hsp, rfl⟩ | ⟨_, rfl⟩ := exec_call_cases h
    · have hnotFull : s.sp ≠ 16 := fun hfull => absurd hsp (by rw [hfull]; decide)
      exact .inr (.inr (.inl ⟨nnn, zextAddr_toNat nnn, .inr ⟨rfl, hnotFull⟩⟩))
    · exact .inl rfl
  | ret =>
    obtain ⟨hsp, rfl⟩ | ⟨hempty, rfl⟩ := exec_ret_cases h
    · exact .inr (.inr (.inr (.inr (.inl ⟨⟨s.sp.val - 1, by omega⟩, Nat.sub_add_cancel hsp, rfl, rfl⟩))))
    · exact .inr (.inr (.inr (.inr (.inr ⟨rfl, .inl ⟨rfl, hempty⟩⟩))))
  | ldVxK x =>
    obtain ⟨hnone, rfl⟩ | ⟨k, _, rfl⟩ := exec_ldVxK_cases h
    · exact .inr (.inr (.inr (.inr (.inr ⟨rfl, .inr ⟨State.key_eq_zero_of_firstKey hnone, x, rfl⟩⟩))))
    · exact .inl rfl
  | _ => cases h; exact .inl (by simp)

end Sys2Proof.Machine

/-! # Proofs: what stores do to memory (20_memory.md R51, R56, R62) -/

namespace Sys2Proof.Machine

/-! ## The bytes an instruction stores to (R56) -/

theorem State.ea_lt (s : State) (k : Nat) : s.ea k < 4096 := wrapAddr_lt _ k

/-- Every stored byte has an effective address `ea(k)`. -/
theorem eq_ea_of_mem_storedBytes {i : Instr} {s : State} {a : Nat} (h : a ∈ storedBytes i s) : ∃ k, a = s.ea k := by
  have hmap {n : Nat} (hn : a ∈ (List.range n).map s.ea) : ∃ k, a = s.ea k :=
    let ⟨k, _, hk⟩ := List.mem_map.1 hn
    ⟨k, hk.symm⟩
  cases i with
  | storeBcd x => exact hmap h
  | dumpRegs x => exact hmap h
  | _ => cases h

/-- Settles O50: the table of changes holds the stored bytes, and `ea(k)` is below 4096. -/
theorem memoryChangesOnlyByStores : Obligations.MemoryChangesOnlyByStores := by
  intro i s t h
  refine ⟨(exec_changesOnly h).bytes, fun a ha => ?_⟩
  obtain ⟨k, rfl⟩ := eq_ea_of_mem_storedBytes ha
  exact s.ea_lt k

/-! ## The register dump and the next fetch (R62) -/

/-- Where `I` and the address of the next word agree modulo 4096, the bytes fetched next are those at `ea(0)` and `ea(1)`. -/
theorem State.wrapAddr_next_eq_ea {s : State} (h : s.I.toNat % 4096 = (s.pc.toNat + 2) % 4096) (k : Nat) :
    wrapAddr (s.pc + 2).toNat k = s.ea k := by
  refine wrapAddr_congr ?_ k
  have hpc : (s.pc + 2).toNat = (s.pc.toNat + 2) % 65536 := BitVec.toNat_add s.pc 2
  omega

/-- A register dump puts `V[r]` at `ea(r)` (46_memory_ops.md R171): at most 16 bytes, so the block does not meet itself. -/
theorem State.read_dump (s : State) {x r : Reg} (hr : r ≤ x) :
    (s.writeBlock s.I.toNat (s.regsUpTo x)).read (s.ea r.val) = s.reg r := by
  have hlength := s.regsUpTo_length x
  have hk : r.val < (s.regsUpTo x).length := hlength ▸ Nat.lt_succ_of_le hr
  exact (s.read_writeBlock_inside s.I.toNat r.val _ (by omega) hk).trans (s.regsUpTo_get x r.val hk)

/-- Settles O38: the next fetch reads `ea(0)` and `ea(1)`, where the dump put `V[0]` and `V[1]`. -/
theorem storeIsSeenByTheNextFetch : Obligations.StoreIsSeenByTheNextFetch := by
  intro x s hx hnext
  refine ⟨_, rfl, ?_⟩
  have hhigh := s.read_dump (x := x) (r := 0) (Fin.zero_le x)
  have hlow := s.read_dump (x := x) (r := 1) hx
  rw [← State.wrapAddr_next_eq_ea hnext] at hhigh hlow
  exact congrArg₂ wordOfBytes hhigh hlow

end Sys2Proof.Machine

/-! # Proofs: the instruction words (30_encoding.md R70 to R78) -/

namespace Sys2Proof

/-! ## Decoding an encoded instruction (R74, R75) -/

/-- Every field of a word in a format reads back as it was put in, so the decoder takes the instruction's branch. -/
theorem decodeWord_encode {i : Instr} (hwf : WellFormed i) : decodeWord (encode i) = .ok i := by
  cases i
  case cls | ret => decide
  case drw x y n =>
    have hn : n % 16 = n := Nat.mod_eq_of_lt (of_decide_eq_true hwf)
    simp [encode, decodeWord, hn]
  case ldReg | orReg | andReg | xorReg | addReg | subReg | shr | subnReg | shl =>
    simp [encode, decodeWord, decodeGroup8]
  case skp | sknp => simp [encode, decodeWord, decodeGroupE]
  case ldVxDT | ldVxK | ldDTVx | ldSTVx | addIndex | ldFont | storeBcd | dumpRegs | loadRegs =>
    simp [encode, decodeWord, decodeGroupF]
  all_goals simp [encode, decodeWord]

/-- The bytes of a word, whatever follows them, decode as the word does (R53, R71). -/
theorem decodeBytes_bytesOfWord (op : Word) (rest : List Byte) :
    decodeBytes (bytesOfWord op ++ rest) = (decodeWord op).map (·, rest) := by
  simp only [bytesOfWord, List.cons_append, List.nil_append, decodeBytes, Machine.wordOfBytes_split]
  cases decodeWord op <;> rfl

theorem decodeTableWord_eq (nbits w : Nat) :
    decodeTableWord nbits w = (decodeWord (BitVec.ofNat 16 (w % 2 ^ nbits))).toOption := by
  have hbytes := decodeBytes_bytesOfWord (BitVec.ofNat 16 (w % 2 ^ nbits)) []
  rw [List.append_nil] at hbytes
  rw [decodeTableWord, hbytes]
  cases decodeWord (BitVec.ofNat 16 (w % 2 ^ nbits)) <;> rfl

theorem decodeWord_of_decodeTableWord {nbits w : Nat} {i : Instr} (h : decodeTableWord nbits w = some i) :
    decodeWord (BitVec.ofNat 16 (w % 2 ^ nbits)) = .ok i := by
  rw [decodeTableWord_eq] at h
  generalize decodeWord (BitVec.ofNat 16 (w % 2 ^ nbits)) = answer at h ⊢
  cases answer <;> cases h
  rfl

/-- Settles O1: through the word by `decodeWord_encode`, and the bytes of a word decode as the word. -/
theorem decodeOfEncodeGivesTheInstruction : Obligations.DecodeOfEncodeGivesTheInstruction := by
  intro i hwf
  have hword := decodeWord_encode hwf
  refine ⟨hword, fun rest => ?_⟩
  rw [encodeBytes, decodeBytes_bytesOfWord, hword]
  rfl

/-! ## What the decoder answers (R77, R78) -/

/-- The list of R77: the words that select no instruction. -/
def UnknownWord (op : Word) : Prop :=
  (op.toNat / 4096 = 0x0 ∧ op.toNat ≠ 0x00E0 ∧ op.toNat ≠ 0x00EE) ∨
  ((op.toNat / 4096 = 0x5 ∨ op.toNat / 4096 = 0x9) ∧ op.toNat % 16 ≠ 0) ∨
  (op.toNat / 4096 = 0x8 ∧ op.toNat % 16 ∈ [0x8, 0x9, 0xA, 0xB, 0xC, 0xD, 0xF]) ∨
  (op.toNat / 4096 = 0xE ∧ op.toNat % 256 ∉ [0x9E, 0xA1]) ∨
  (op.toNat / 4096 = 0xF ∧ op.toNat % 256 ∉ [0x07, 0x0A, 0x15, 0x18, 0x1E, 0x29, 0x33, 0x55, 0x65])

/-- The groups in which R77 lists words. -/
def listedGroups : List (BitVec 4) := [0x0#4, 0x5#4, 0x8#4, 0x9#4, 0xE#4, 0xF#4]

/-- A right answer to a word: a well-formed instruction with exactly this word, which R77 then does not list, or, for a word
that R77 lists, the rejection that names it. -/
inductive Answers (op : Word) : Except DecodeError Instr → Prop
  | instr {i : Instr} (hword : encode i = op) (hwf : WellFormed i) (hknown : ¬UnknownWord op) : Answers op (.ok i)
  | unknown (h : UnknownWord op) : Answers op (.error (.unknownOpcode op))

section
variable {op : Word} {g n : BitVec 4} {nn : Byte}

theorem fieldG_eq_iff : fieldG op = g ↔ op.toNat / 4096 = g.toNat := by
  rw [← BitVec.toNat_inj, fieldG_toNat]
  omega

theorem fieldN_eq_iff : fieldN op = n ↔ op.toNat % 16 = n.toNat := by
  rw [← BitVec.toNat_inj, fieldN_toNat]

theorem fieldNN_eq_iff : fieldNN op = nn ↔ op.toNat % 256 = nn.toNat := by
  rw [← BitVec.toNat_inj, fieldNN_toNat]

theorem formatNNN_of_fieldG (hg : fieldG op = g) : formatNNN g (fieldNNN op) = op :=
  hg ▸ formatNNN_fields op

theorem formatXNN_of_fieldG (hg : fieldG op = g) : formatXNN g (fieldX op) (fieldNN op) = op :=
  hg ▸ formatXNN_fields op

theorem formatXNN_of_fields (hg : fieldG op = g) (hnn : fieldNN op = nn) : formatXNN g (fieldX op) nn = op :=
  hnn ▸ formatXNN_of_fieldG hg

theorem formatXYN_of_fields (hg : fieldG op = g) (hn : fieldN op = n) : formatXYN g (fieldX op) (fieldY op) n = op :=
  hg ▸ hn ▸ formatXYN_fields op

/-! ### Which words R77 lists, by their fields -/

theorem unknownWord_group0 (hg : fieldG op = 0x0#4) : UnknownWord op ↔ op ∉ [0x00E0#16, 0x00EE#16] := by
  rw [fieldG_eq_iff] at hg
  simp [UnknownWord, hg, ← BitVec.toNat_inj]

theorem unknownWord_group5_9 (hg : fieldG op = 0x5#4 ∨ fieldG op = 0x9#4) : UnknownWord op ↔ fieldN op ∉ [0x0#4] := by
  simp only [fieldG_eq_iff] at hg
  rcases hg with hg | hg <;> simp [UnknownWord, hg, fieldN_eq_iff]

theorem unknownWord_group8 (hg : fieldG op = 0x8#4) :
    UnknownWord op ↔ fieldN op ∉ [0x0#4, 0x1#4, 0x2#4, 0x3#4, 0x4#4, 0x5#4, 0x6#4, 0x7#4, 0xE#4] := by
  simp only [UnknownWord, fieldG_eq_iff, fieldN_eq_iff, List.mem_cons, List.not_mem_nil, or_false,
    BitVec.toNat_ofNat] at hg ⊢
  omega

theorem unknownWord_groupE (hg : fieldG op = 0xE#4) : UnknownWord op ↔ fieldNN op ∉ [0x9E#8, 0xA1#8] := by
  rw [fieldG_eq_iff] at hg
  simp [UnknownWord, hg, fieldNN_eq_iff]

theorem unknownWord_groupF (hg : fieldG op = 0xF#4) :
    UnknownWord op ↔ fieldNN op ∉ [0x07#8, 0x0A#8, 0x15#8, 0x18#8, 0x1E#8, 0x29#8, 0x33#8, 0x55#8, 0x65#8] := by
  rw [fieldG_eq_iff] at hg
  simp [UnknownWord, hg, fieldNN_eq_iff]

/-- In the groups that R77 does not name every word is known. -/
theorem known_of_group (hg : fieldG op = g) (h : g ∉ listedGroups) : ¬UnknownWord op := by
  rw [← hg] at h
  simp only [UnknownWord, listedGroups, fieldG_eq_iff, List.mem_cons, List.not_mem_nil, or_false, BitVec.toNat_ofNat] at h ⊢
  omega

/-- In a group that lists what it knows, a word whose selecting field is on the list is known. -/
theorem known_of_mem {α : Type} {field value : α} {listed : List α} (hgroup : UnknownWord op ↔ field ∉ listed)
    (hfield : field = value) (h : value ∈ listed) : ¬UnknownWord op :=
  fun hop => hgroup.1 hop (hfield ▸ h)

/-! ### The answer of each group -/

theorem decodeGroup0_answers (hg : fieldG op = 0x0#4) : Answers op (decodeGroup0 op) := by
  have hgroup := unknownWord_group0 hg
  unfold decodeGroup0
  split_ifs with hcls hret
  · exact .instr hcls.symm rfl (known_of_mem hgroup hcls (by decide))
  · exact .instr hret.symm rfl (known_of_mem hgroup hret (by decide))
  · exact .unknown (hgroup.2 (by simp [hcls, hret]))

/-- Groups 5 and 9 have one instruction each, at low nibble 0 (D9). -/
theorem nibbleZero_answers {i : Instr} (hg : fieldG op = 0x5#4 ∨ fieldG op = 0x9#4) (hwf : WellFormed i)
    (hword : fieldN op = 0x0#4 → encode i = op) :
    Answers op (if fieldN op = 0x0#4 then .ok i else .error (.unknownOpcode op)) := by
  have hgroup := unknownWord_group5_9 hg
  split_ifs with hn
  · exact .instr (hword hn) hwf (known_of_mem hgroup hn (by decide))
  · exact .unknown (hgroup.2 (by simp [hn]))

theorem decodeGroup8_answers (hg : fieldG op = 0x8#4) : Answers op (decodeGroup8 op) := by
  have hgroup := unknownWord_group8 hg
  unfold decodeGroup8
  split_ifs with h0 h1 h2 h3 h4 h5 h6 h7 hE
  case neg => exact .unknown (hgroup.2 (by simp [h0, h1, h2, h3, h4, h5, h6, h7, hE]))
  all_goals exact .instr (formatXYN_of_fields hg ‹_›) rfl (known_of_mem hgroup ‹_› (by decide))

theorem decodeGroupE_answers (hg : fieldG op = 0xE#4) : Answers op (decodeGroupE op) := by
  have hgroup := unknownWord_groupE hg
  unfold decodeGroupE
  split_ifs with hskp hsknp
  · exact .instr (formatXNN_of_fields hg hskp) rfl (known_of_mem hgroup hskp (by decide))
  · exact .instr (formatXNN_of_fields hg hsknp) rfl (known_of_mem hgroup hsknp (by decide))
  · exact .unknown (hgroup.2 (by simp [hskp, hsknp]))

theorem decodeGroupF_answers (hg : fieldG op = 0xF#4) : Answers op (decodeGroupF op) := by
  have hgroup := unknownWord_groupF hg
  unfold decodeGroupF
  split_ifs with h07 h0A h15 h18 h1E h29 h33 h55 h65
  case neg => exact .unknown (hgroup.2 (by simp [h07, h0A, h15, h18, h1E, h29, h33, h55, h65]))
  all_goals exact .instr (formatXNN_of_fields hg ‹_›) rfl (known_of_mem hgroup ‹_› (by decide))

/-- In a group that R77 does not name every word is an instruction. -/
theorem answers_of_group {i : Instr} (hother : g ∉ listedGroups) (hwf : WellFormed i)
    (hword : fieldG op = g → encode i = op) (hg : fieldG op = g) : Answers op (.ok i) :=
  .instr (hword hg) hwf (known_of_group hg hother)

theorem encode_drw_fields (hg : fieldG op = 0xD#4) : encode (.drw (fieldX op) (fieldY op) (fieldN op).toNat) = op := by
  rw [encode, BitVec.ofNat_toNat, BitVec.setWidth_eq]
  exact formatXYN_of_fields hg rfl

/-- Every word gets its right answer (R78), by the groups in the decoder's order. -/
theorem decodeWord_answers (op : Word) : Answers op (decodeWord op) := by
  have hheight : WellFormed (.drw (fieldX op) (fieldY op) (fieldN op).toNat) := decide_eq_true (fieldN op).isLt
  unfold decodeWord
  refine iteInduction decodeGroup0_answers fun h0 => ?_
  refine iteInduction (answers_of_group (by decide) rfl formatNNN_of_fieldG) fun h1 => ?_
  refine iteInduction (answers_of_group (by decide) rfl formatNNN_of_fieldG) fun h2 => ?_
  refine iteInduction (answers_of_group (by decide) rfl formatXNN_of_fieldG) fun h3 => ?_
  refine iteInduction (answers_of_group (by decide) rfl formatXNN_of_fieldG) fun h4 => ?_
  refine iteInduction (fun h => nibbleZero_answers (.inl h) rfl (formatXYN_of_fields h)) fun h5 => ?_
  refine iteInduction (answers_of_group (by decide) rfl formatXNN_of_fieldG) fun h6 => ?_
  refine iteInduction (answers_of_group (by decide) rfl formatXNN_of_fieldG) fun h7 => ?_
  refine iteInduction decodeGroup8_answers fun h8 => ?_
  refine iteInduction (fun h => nibbleZero_answers (.inr h) rfl (formatXYN_of_fields h)) fun h9 => ?_
  refine iteInduction (answers_of_group (by decide) rfl formatNNN_of_fieldG) fun hA => ?_
  refine iteInduction (answers_of_group (by decide) rfl formatNNN_of_fieldG) fun hB => ?_
  refine iteInduction (answers_of_group (by decide) rfl formatXNN_of_fieldG) fun hC => ?_
  refine iteInduction (answers_of_group (by decide) hheight encode_drw_fields) fun hD => ?_
  refine iteInduction decodeGroupE_answers fun hE => ?_
  exact decodeGroupF_answers (by bv_omega)

end

/-- Settles O2: the right answer to a word is an instruction with this word. -/
theorem encodeOfDecodeGivesTheWord : Obligations.EncodeOfDecodeGivesTheWord := by
  intro op i h
  have hanswer := decodeWord_answers op
  rw [h] at hanswer
  cases hanswer with
  | instr hword hwf _ => exact ⟨hword, hwf⟩

theorem decodeWord_eq_unknown_iff (op : Word) : decodeWord op = .error (.unknownOpcode op) ↔ UnknownWord op := by
  have hanswer := decodeWord_answers op
  generalize decodeWord op = answer at hanswer ⊢
  cases hanswer with
  | instr _ _ hknown => simp [hknown]
  | unknown h => simp [h]

/-- Settles O5: `UnknownWord` is the obligation's list. -/
theorem unknownWordsByGroup : Obligations.UnknownWordsByGroup :=
  decodeWord_eq_unknown_iff

/-! ## The rows of the opcode table (R74) -/

/-- Which bits of a word select a row: the group decides it. -/
def groupMask (g : BitVec 4) : Word :=
  if g = 0x0#4 then 0xFFFF
  else if g ∈ [0x5#4, 0x8#4, 0x9#4] then 0xF00F
  else if g ∈ [0xE#4, 0xF#4] then 0xF0FF
  else 0xF000

/-- Every row looks at the bits its group asks for, and stands for words that R77 does not list. -/
theorem opcodeTable_rows : ∀ r ∈ opcodeTable, r.mask = groupMask (fieldG r.pattern) ∧ ¬UnknownWord r.pattern := by
  unfold UnknownWord
  decide

theorem opcodeTable_nodup : opcodeTable.Nodup := by decide

section
variable {op : Word}

theorem and_nibble (n : BitVec 4) : n &&& 0xF#4 = n := BitVec.and_allOnes

theorem and_byte (b : Byte) : b &&& 0xFF#8 = b := BitVec.and_allOnes

theorem fieldG_and (a b : Word) : fieldG (a &&& b) = fieldG a &&& fieldG b := BitVec.extractLsb'_and

theorem fieldN_and (a b : Word) : fieldN (a &&& b) = fieldN a &&& fieldN b := BitVec.extractLsb'_and

theorem fieldNN_and (a b : Word) : fieldNN (a &&& b) = fieldNN a &&& fieldNN b := BitVec.extractLsb'_and

theorem fieldG_groupMask (g : BitVec 4) : fieldG (groupMask g) = 0xF#4 := by
  unfold groupMask
  split_ifs <;> decide

theorem fieldG_and_groupMask (g : BitVec 4) : fieldG (op &&& groupMask g) = fieldG op := by
  rw [fieldG_and, fieldG_groupMask, and_nibble]

/-- No two rows share a word: the only row a word can select is made of the word itself. -/
theorem eq_of_selects {r : OpcodeRow} (hr : r ∈ opcodeTable) (h : r.selects op = true) :
    r = ⟨groupMask (fieldG op), op &&& groupMask (fieldG op)⟩ := by
  obtain ⟨mask, pattern⟩ := r
  have hmask : mask = groupMask (fieldG pattern) := (opcodeTable_rows _ hr).1
  have hpattern : op &&& mask = pattern := beq_iff_eq.1 h
  have hgroup : fieldG pattern = fieldG op := by rw [← hpattern, hmask, fieldG_and_groupMask]
  rw [← hgroup, ← hmask, hpattern]

/-- The bits that do not select a row do not decide whether R77 lists the word. -/
theorem unknownWord_and_groupMask (h : UnknownWord op) : UnknownWord (op &&& groupMask (fieldG op)) := by
  have hlisted : fieldG op ∈ listedGroups :=
    not_not.1 fun hother => known_of_group rfl hother h
  have hgroup := fieldG_and_groupMask (op := op) (fieldG op)
  have hnibble : fieldN (op &&& 0xF00F#16) = fieldN op := (fieldN_and op _).trans (and_nibble _)
  have hbyte : fieldNN (op &&& 0xF0FF#16) = fieldNN op := (fieldNN_and op _).trans (and_byte _)
  simp only [listedGroups, List.mem_cons, List.not_mem_nil, or_false] at hlisted
  rcases hlisted with hg | hg | hg | hg | hg | hg <;> rw [hg] at hgroup ⊢
  · exact (BitVec.and_allOnes (x := op)).symm ▸ h
  · exact (unknownWord_group5_9 (.inl hgroup)).2 (hnibble ▸ (unknownWord_group5_9 (.inl hg)).1 h)
  · exact (unknownWord_group8 hgroup).2 (hnibble ▸ (unknownWord_group8 hg).1 h)
  · exact (unknownWord_group5_9 (.inr hgroup)).2 (hnibble ▸ (unknownWord_group5_9 (.inr hg)).1 h)
  · exact (unknownWord_groupE hgroup).2 (hbyte ▸ (unknownWord_groupE hg).1 h)
  · exact (unknownWord_groupF hgroup).2 (hbyte ▸ (unknownWord_groupF hg).1 h)

theorem formatNNN_and_F000 (g : BitVec 4) (a : BitVec 12) : formatNNN g a &&& 0xF000#16 = formatNNN g 0 := by
  refine (BitVec.and_append (x₂ := 0xF#4) (y₂ := 0x000#12)).trans ?_
  rw [and_nibble, BitVec.and_zero]
  rfl

theorem formatXNN_and_F000 (g : BitVec 4) (x : Reg) (nn : Byte) : formatXNN g x nn &&& 0xF000#16 = formatNNN g 0 :=
  formatNNN_and_F000 g (regField x ++ nn)

theorem formatXYN_and_F000 (g : BitVec 4) (x y : Reg) (n : BitVec 4) : formatXYN g x y n &&& 0xF000#16 = formatNNN g 0 :=
  formatNNN_and_F000 g (regField x ++ (regField y ++ n))

theorem formatXNN_and_F0FF (g : BitVec 4) (x : Reg) (nn : Byte) : formatXNN g x nn &&& 0xF0FF#16 = formatXNN g 0 nn := by
  refine (BitVec.and_append (x₂ := 0xF#4) (y₂ := 0x0#4 ++ 0xFF#8)).trans ?_
  rw [and_nibble, BitVec.and_append, BitVec.and_zero, and_byte]
  rfl

theorem formatXYN_and_F00F (g : BitVec 4) (x y : Reg) (n : BitVec 4) :
    formatXYN g x y n &&& 0xF00F#16 = formatXYN g 0 0 n := by
  refine (BitVec.and_append (x₂ := 0xF#4) (y₂ := 0x0#4 ++ (0x0#4 ++ 0xF#4))).trans ?_
  rw [and_nibble, BitVec.and_append, BitVec.and_zero, BitVec.and_append, BitVec.and_zero, and_nibble]
  rfl

end

open Laws.RowInTable in
/-- The family `Laws.RowInTable`, for every instruction. -/
theorem rowOf_mem_opcodeTable (i : Instr) : rowOf i ∈ opcodeTable :=
  match i with
  | .cls => cls | .ret => ret | .jp nnn => jp nnn | .call nnn => call nnn | .seImm x nn => seImm x nn
  | .sneImm x nn => sneImm x nn | .seReg x y => seReg x y | .ldImm x nn => ldImm x nn
  | .addImm x nn => addImm x nn | .ldReg x y => ldReg x y | .orReg x y => orReg x y | .andReg x y => andReg x y
  | .xorReg x y => xorReg x y | .addReg x y => addReg x y | .subReg x y => subReg x y | .shr x y => shr x y
  | .subnReg x y => subnReg x y | .shl x y => shl x y | .sneReg x y => sneReg x y | .ldIndex nnn => ldIndex nnn
  | .jpV0 nnn => jpV0 nnn | .rnd x nn => rnd x nn | .drw x y n => drw x y n | .skp x => skp x
  | .sknp x => sknp x | .ldVxDT x => ldVxDT x | .ldVxK x => ldVxK x | .ldDTVx x => ldDTVx x
  | .ldSTVx x => ldSTVx x | .addIndex x => addIndex x | .ldFont x => ldFont x | .storeBcd x => storeBcd x
  | .dumpRegs x => dumpRegs x | .loadRegs x => loadRegs x

/-- The word of an instruction, its operands masked out, is the pattern of the instruction's row. -/
theorem encode_and_mask (i : Instr) : encode i &&& (rowOf i).mask = (rowOf i).pattern := by
  cases i
  case cls | ret => decide
  case jp nnn | call nnn | ldIndex nnn | jpV0 nnn => exact formatNNN_and_F000 _ nnn
  case seImm x nn | sneImm x nn | ldImm x nn | addImm x nn | rnd x nn => exact formatXNN_and_F000 _ x nn
  case drw x y n => exact formatXYN_and_F000 _ x y _
  case skp x | sknp x | ldVxDT x | ldVxK x | ldDTVx x | ldSTVx x | addIndex x | ldFont x | storeBcd x | dumpRegs x
    | loadRegs x => exact formatXNN_and_F0FF _ x _
  all_goals exact formatXYN_and_F00F _ _ _ _

theorem selects_encode_iff {r : OpcodeRow} (hr : r ∈ opcodeTable) (i : Instr) :
    r.selects (encode i) = true ↔ r = rowOf i := by
  have hrow : (rowOf i).selects (encode i) = true := beq_iff_eq.2 (encode_and_mask i)
  refine ⟨fun h => ?_, fun h => h ▸ hrow⟩
  rw [eq_of_selects hr h, eq_of_selects (rowOf_mem_opcodeTable i) hrow]

theorem filter_selects_encode (i : Instr) : opcodeTable.filter (fun r => r.selects (encode i)) = [rowOf i] := by
  have hnodup : (opcodeTable.filter fun r => r.selects (encode i)).Nodup := opcodeTable_nodup.filter _
  refine List.perm_singleton.1 ((List.perm_ext_iff_of_nodup hnodup (List.nodup_singleton _)).2 fun r => ?_)
  rw [List.mem_filter, List.mem_singleton]
  constructor
  · rintro ⟨hr, h⟩
    exact (selects_encode_iff hr i).1 h
  · rintro rfl
    have hr := rowOf_mem_opcodeTable i
    exact ⟨hr, (selects_encode_iff hr i).2 rfl⟩

theorem filter_selects_unknown {op : Word} (h : UnknownWord op) : opcodeTable.filter (fun r => r.selects op) = [] := by
  refine List.filter_eq_nil_iff.2 fun r hr hselects => (opcodeTable_rows r hr).2 ?_
  rw [eq_of_selects hr hselects]
  exact unknownWord_and_groupMask h

/-- Settles O3: by the decoder's right answer, an encoded word selects its instruction's row and an unknown word none. -/
theorem everyWordSelectsItsOneRow : Obligations.EveryWordSelectsItsOneRow := by
  intro op
  have hanswer := decodeWord_answers op
  generalize decodeWord op = answer at hanswer ⊢
  cases hanswer with
  | instr hword _ _ => exact .inl ⟨_, rfl, hword ▸ filter_selects_encode _⟩
  | unknown h => exact .inr ⟨rfl, filter_selects_unknown h⟩

/-- Settles O4: the decoder evaluated at the thirteen words. -/
theorem wordsOfTheSpecDecode : Obligations.WordsOfTheSpecDecode := by
  unfold Obligations.WordsOfTheSpecDecode
  decide

end Sys2Proof

namespace Sys2Proof.Machine

/-- Settles O6: a Step that is next runs the engine, and the engine runs the instruction that the fetched word decodes to. -/
theorem stepRunsTheDecodedInstruction : Obligations.StepRunsTheDecodedInstruction := by
  intro s rest i hnext hword
  rw [step_of_stepIsNext hnext]
  exact engineStep_ok hword

/-- Settles O9: a placed word is the word fetched, and the host issues Steps. -/
theorem placedWordIsRunNext : Obligations.PlacedWordIsRunNext := by
  intro s w i _ hdecode
  have hword := decodeWord_of_decodeTableWord hdecode
  rw [State.withFetchWord, step_idle rfl rfl]
  refine engineStep_ok ?_
  rw [State.fetch_placeWord, hword]

end Sys2Proof.Machine

/-! # Proofs: control transfer (40_control_flow.md) -/

namespace Sys2Proof.Machine

/-! ## Frames of the stack operations -/

/-- Two changes one after another, each within the same bounds. -/
theorem ChangesOnly.trans {c : Changes} {s t u : State} (h : ChangesOnly c s t) (h' : ChangesOnly c t u) :
    ChangesOnly c s u where
  regs r hr := (h'.regs r hr).trans (h.regs r hr)
  bytes a ha := (h'.bytes a ha).trans (h.bytes a ha)
  index hc := (h'.index hc).trans (h.index hc)
  stack hc := ⟨(h'.stack hc).1.trans (h.stack hc).1, (h'.stack hc).2.trans (h.stack hc).2⟩
  delay hc := (h'.delay hc).trans (h.delay hc)
  sound hc := (h'.sound hc).trans (h.sound hc)
  screen hc := ⟨(h'.screen hc).1.trans (h.screen hc).1, (h'.screen hc).2.trans (h.screen hc).2⟩
  draws hc := (h'.draws hc).trans (h.draws hc)
  reports hc := ⟨(h'.reports hc).1.trans (h.reports hc).1, (h'.reports hc).2.trans (h.reports hc).2⟩
  key := h'.key.trans h.key
  incrementI := h'.incrementI.trans h.incrementI
  loadResult := h'.loadResult.trans h.loadResult
  schedule := h'.schedule.trans h.schedule
  afterwards := h'.afterwards.trans h.afterwards

/-- A return that pops reports nothing (R100). -/
theorem ChangesOnly.of_pop_unreported (s : State) (a : Word) : ChangesOnly { stack := true } s (s.pop.setPc a) :=
  { ChangesOnly.refl s { stack := true } with stack := nofun }

/-- A call that pushes reports nothing (R102). -/
theorem ChangesOnly.of_push_unreported (s : State) (a b : Word) (h : s.sp.val < 16) :
    ChangesOnly { stack := true } s ((s.push a h).setPc b) :=
  { ChangesOnly.refl s { stack := true } with stack := nofun }

/-! ## The stack after a push -/

theorem State.push_stack_self (s : State) (a : Word) (h : s.sp.val < 16) : (s.push a h).stack[s.sp.val] = a :=
  Vector.getElem_set_self h

theorem State.push_stack_ne (s : State) (a : Word) (h : s.sp.val < 16) (j : Fin 16) (hj : j.val ≠ s.sp.val) :
    (s.push a h).stack[j] = s.stack[j] :=
  Vector.getElem_set_ne h j.isLt hj.symm

/-! ## The obligations -/

/-- Settles O14: the return pops the address that the call pushed. -/
theorem callThenReturnComesBack : Obligations.CallThenReturnComesBack := by
  intro nnn s h
  have hpushed : 0 < ((s.push (s.pc + 2) h).setPc (zextAddr nnn)).sp.val := Nat.succ_pos _
  refine ⟨_, _, execCall_push nnn h, execRet_pop hpushed, ?_, rfl, s.push_stack_ne _ h, ?_⟩
  · exact s.push_stack_self (s.pc + 2) h
  · exact (ChangesOnly.of_push_unreported s _ _ h).trans (ChangesOnly.of_pop_unreported _ _)

/-- Settles O10: the two branches of RET. -/
theorem returnPopsOrStalls : Obligations.ReturnPopsOrStalls := by
  refine ⟨fun s h => ?_, fun s h => ?_⟩
  · exact ⟨_, execRet_pop h, rfl, rfl, rfl, .of_pop_unreported s _⟩
  · exact ⟨_, execRet_empty h, rfl, rfl, .of_raise s _ s.pc⟩

/-- Settles O11: writing to `pc` what it holds changes nothing. -/
theorem jumpGoesToItsAddress : Obligations.JumpGoesToItsAddress := by
  refine ⟨fun nnn => decodeWord_encode (i := .jp nnn) rfl, fun nnn s => ?_⟩
  refine ⟨_, rfl, zextAddr_toNat nnn, .of_setPc s _, fun h => ?_⟩
  have hself : zextAddr nnn = s.pc := BitVec.eq_of_toNat_eq ((zextAddr_toNat nnn).trans h.symm)
  rw [hself]
  rfl

/-- Settles O12: the branch of CALL that pushes. -/
theorem callPushesTheReturnAddress : Obligations.CallPushesTheReturnAddress := by
  intro nnn s h
  exact ⟨_, execCall_push nnn h, s.push_stack_self _ h, s.push_stack_ne _ h, rfl, zextAddr_toNat nnn,
    .of_push_unreported s _ _ h⟩

/-- Settles O13: the branch of CALL on a full stack. -/
theorem callOnFullStackIsSkipped : Obligations.CallOnFullStackIsSkipped := by
  intro nnn s h
  exact ⟨_, execCall_full nnn h, rfl, rfl, .of_raise s _ (s.pc + 2)⟩

/-- Settles O15: each of the four is a skip on its comparison. -/
theorem skipsCompareUnsignedBytes : Obligations.SkipsCompareUnsignedBytes := by
  refine ⟨fun x nn => decodeWord_encode (i := .seImm x nn) rfl, fun x nn => decodeWord_encode (i := .sneImm x nn) rfl,
    fun x y => decodeWord_encode (i := .seReg x y) rfl, fun x y => decodeWord_encode (i := .sneReg x y) rfl,
    fun x y nn s => ⟨?_, ?_, ?_, ?_⟩⟩
  · exact .of_exec rfl beq_iff_eq
  · exact .of_exec rfl bne_iff_ne
  · exact .of_exec rfl beq_iff_eq
  · exact .of_exec rfl bne_iff_ne

/-- Settles O16: the sum of a byte and a 12-bit address is below 65536, so it is not reduced. -/
theorem jumpWithOffsetAddsV0 : Obligations.JumpWithOffsetAddsV0 := by
  refine ⟨fun nnn => decodeWord_encode (i := .jpV0 nnn) rfl, fun nnn s => ?_⟩
  exact ⟨_, rfl, zextByte_add_zextAddr_toNat (s.reg 0) nnn, .of_setPc s _⟩

end Sys2Proof.Machine

/-! # Proofs: load and add immediate (41_immediate.md) -/

namespace Sys2Proof.Machine

/-- The addition of bytes is the sum modulo 256 (R111). -/
theorem byte_add_eq_ofNat (a b : Byte) : a + b = BitVec.ofNat 8 ((a.toNat + b.toNat) % 256) :=
  BitVec.eq_of_toNat_eq (by simp)

/-- Settles O17: the register written is the only change. -/
theorem loadImmediateSetsTheRegister : Obligations.LoadImmediateSetsTheRegister := by
  refine ⟨fun x nn => decodeWord_encode (i := .ldImm x nn) rfl, fun x nn s => ?_⟩
  exact .of_exec rfl

/-- Settles O18: the register written is the only change, and the byte written is the sum modulo 256. -/
theorem addImmediateWrapsWithoutFlag : Obligations.AddImmediateWrapsWithoutFlag := by
  refine ⟨fun x nn => decodeWord_encode (i := .addImm x nn) rfl, fun x nn s => ?_⟩
  rw [← byte_add_eq_ofNat]
  exact .of_exec rfl

end Sys2Proof.Machine

/-! # Proofs: register arithmetic and logic (42_alu.md) -/

namespace Sys2Proof.Machine

/-! ## The flags as numbers (R124 to R128) -/

theorem flagByte_decide_toNat (p : Prop) [Decidable p] : (flagByte (decide p)).toNat = if p then 1 else 0 := by
  by_cases hp : p <;> simp [flagByte, hp]

theorem flagByte_toNat (b : Bool) : (flagByte b).toNat = b.toNat := by cases b <;> rfl

/-- The bit a right shift drops is the remainder by 2. -/
theorem flagByte_lowBit_toNat (a : Byte) : (flagByte (lowBit a)).toNat = a.toNat % 2 := by
  rw [flagByte_toNat, lowBit, BitVec.getLsbD, Nat.toNat_testBit, pow_zero, Nat.div_one]

/-- The bit a left shift drops is the quotient by 128: of a byte, it is at most 1. -/
theorem flagByte_highBit_toNat (a : Byte) : (flagByte (highBit a)).toNat = a.toNat / 128 := by
  rw [flagByte_toNat, highBit, BitVec.getLsbD, Nat.toNat_testBit]
  omega

/-! ## The results as numbers -/

theorem byte_sub_toNat (a b : Byte) : (a - b).toNat = (a.toNat + 256 - b.toNat) % 256 := by
  rw [BitVec.toNat_sub]
  omega

theorem byte_shiftRight_one_toNat (a : Byte) : (a >>> 1).toNat = a.toNat / 2 := by
  rw [BitVec.toNat_ushiftRight, Nat.shiftRight_one]

theorem byte_shiftLeft_one_toNat (a : Byte) : (a <<< 1).toNat = a.toNat * 2 % 256 := by
  rw [BitVec.toNat_shiftLeft, Nat.shiftLeft_eq]

/-! ## The five flag writers, over every pair of registers (R129, D7)

The operands are read in the state before, so register 15 needs no case of its own. -/

section
variable (x y : Reg) (s : State)

theorem addReg_writesFlagAndResult :
    WritesFlagAndResult (.addReg x y) x (if (s.reg x).toNat + (s.reg y).toNat > 255 then 1 else 0)
      (((s.reg x).toNat + (s.reg y).toNat) % 256) s :=
  .of_exec rfl (flagByte_decide_toNat _) (BitVec.toNat_add _ _)

theorem subReg_writesFlagAndResult :
    WritesFlagAndResult (.subReg x y) x (if (s.reg x).toNat > (s.reg y).toNat then 1 else 0)
      (((s.reg x).toNat + 256 - (s.reg y).toNat) % 256) s :=
  .of_exec rfl (flagByte_decide_toNat _) (byte_sub_toNat _ _)

theorem subnReg_writesFlagAndResult :
    WritesFlagAndResult (.subnReg x y) x (if (s.reg y).toNat > (s.reg x).toNat then 1 else 0)
      (((s.reg y).toNat + 256 - (s.reg x).toNat) % 256) s :=
  .of_exec rfl (flagByte_decide_toNat _) (byte_sub_toNat _ _)

theorem shr_writesFlagAndResult :
    WritesFlagAndResult (.shr x y) x ((s.reg x).toNat % 2) ((s.reg x).toNat / 2) s :=
  .of_exec rfl (flagByte_lowBit_toNat _) (byte_shiftRight_one_toNat _)

theorem shl_writesFlagAndResult :
    WritesFlagAndResult (.shl x y) x ((s.reg x).toNat / 128) ((s.reg x).toNat * 2 % 256) s :=
  .of_exec rfl (flagByte_highBit_toNat _) (byte_shiftLeft_one_toNat _)

end

/-! ## The obligations -/

/-- Settles O23: what the five flag writers do holds over every pair of registers, register 15 among them. -/
theorem registerFifteenAsOperand : Obligations.RegisterFifteenAsOperand := by
  intro x y s _
  exact ⟨addReg_writesFlagAndResult x y s, subReg_writesFlagAndResult x y s, subnReg_writesFlagAndResult x y s,
    shr_writesFlagAndResult x y s, shl_writesFlagAndResult x y s⟩

/-- Settles O19: each of the four writes its result to one register and moves on. -/
theorem copyAndLogicWriteNoFlag : Obligations.CopyAndLogicWriteNoFlag := by
  refine ⟨fun x y => decodeWord_encode (i := .ldReg x y) rfl, fun x y => decodeWord_encode (i := .orReg x y) rfl,
    fun x y => decodeWord_encode (i := .andReg x y) rfl, fun x y => decodeWord_encode (i := .xorReg x y) rfl,
    fun x y s => ⟨?_, ?_, ?_, ?_⟩⟩
  · exact .of_exec rfl
  · exact .of_exec rfl
  · exact .of_exec rfl
  · exact .of_exec rfl

/-- Settles O20: the flag is the carry of the sum. -/
theorem addSetsTheCarry : Obligations.AddSetsTheCarry := by
  refine ⟨fun x y => decodeWord_encode (i := .addReg x y) rfl, fun x y s _ _ => ?_⟩
  exact addReg_writesFlagAndResult x y s

/-- Settles O21: the two subtractions differ in which operand is the minuend. -/
theorem subtractsSetTheStrictlyGreaterFlag : Obligations.SubtractsSetTheStrictlyGreaterFlag := by
  refine ⟨fun x y => decodeWord_encode (i := .subReg x y) rfl, fun x y => decodeWord_encode (i := .subnReg x y) rfl,
    fun x y s _ _ => ?_⟩
  exact ⟨subReg_writesFlagAndResult x y s, subnReg_writesFlagAndResult x y s⟩

/-- Settles O22: the bit dropped on either side is a remainder or a quotient of the byte shifted. -/
theorem shiftsMoveVxByOne : Obligations.ShiftsMoveVxByOne := by
  refine ⟨fun x y => decodeWord_encode (i := .shr x y) rfl, fun x y => decodeWord_encode (i := .shl x y) rfl,
    fun x y s _ => ?_⟩
  exact ⟨shr_writesFlagAndResult x y s, shl_writesFlagAndResult x y s⟩

end Sys2Proof.Machine

/-! # Proofs: index register and random byte (43_index_random.md) -/

namespace Sys2Proof.Machine

/-! ## The operands as numbers -/

theorem zextByte_toNat (v : Byte) : (zextByte v).toNat = v.toNat :=
  BitVec.toNat_setWidth_of_le (by decide)

/-- The mask 0x0F keeps the low nibble. -/
theorem byte_and_0F_toNat (v : Byte) : (v &&& 0x0F).toNat = v.toNat % 16 :=
  (BitVec.toNat_and v 0x0F).trans (Nat.and_two_pow_sub_one_eq_mod v.toNat 4)

/-- The address of a glyph does not wrap: it is at most 0x50 + 15 * 5. -/
theorem fontAddress_toNat (v : Byte) : (fontAddress v).toNat = 0x0050 + v.toNat % 16 * 5 := by
  have hdigit : (zextByte (v &&& 0x0F)).toNat = v.toNat % 16 := (zextByte_toNat _).trans (byte_and_0F_toNat v)
  rw [fontAddress]
  bv_omega

/-- A byte under a mask has no bit that the mask lacks. -/
theorem byte_and_and_not (b m : Byte) : b &&& m &&& ~~~m = 0 := by
  rw [BitVec.and_assoc, BitVec.and_not_self]
  exact BitVec.and_zero

/-! ## The obligations -/

/-- Settles O24: widening the address with zeros keeps its value. -/
theorem setIndexLoadsTheAddress : Obligations.SetIndexLoadsTheAddress := by
  refine ⟨fun nnn => decodeWord_encode (i := .ldIndex nnn) rfl, fun nnn s => ?_⟩
  exact ⟨_, rfl, zextAddr_toNat nnn, rfl, .of_setI s _⟩

/-- Settles O25: the register receives the free byte under the mask, whatever that byte is. -/
theorem randomByteIsMasked : Obligations.RandomByteIsMasked := by
  intro x nn s
  have hx : (s.drawn.maskedDraw x nn s.rand).reg x = s.rand &&& nn := s.drawn.reg_setReg_self x (s.rand &&& nn)
  refine ⟨_, rfl, hx, ?_, rfl, rfl, .of_maskedDraw s x nn s.rand⟩
  rw [hx]
  exact byte_and_and_not s.rand nn

/-- Settles O26: the addition of 16-bit words is the sum modulo 65536. -/
theorem addToIndexWrapsAtSixteenBits : Obligations.AddToIndexWrapsAtSixteenBits := by
  intro x s
  have hsum : (s.I + zextByte (s.reg x)).toNat = (s.I.toNat + (s.reg x).toNat) % 65536 := by
    rw [BitVec.toNat_add, zextByte_toNat]
  exact ⟨_, rfl, hsum, rfl, .of_setI s _⟩

/-- Settles O27: `I` receives the glyph's address. -/
theorem fontAddressOfTheLowNibble : Obligations.FontAddressOfTheLowNibble := by
  refine ⟨fun x => decodeWord_encode (i := .ldFont x) rfl, fun x s => ?_⟩
  exact ⟨_, rfl, fontAddress_toNat (s.reg x), rfl, .of_setI s _⟩

end Sys2Proof.Machine

/-! # Proofs: display (44_display.md) -/

namespace Sys2Proof.Machine

/-! ## The collision flag -/

theorem flagByte_eq_one_iff (b : Bool) : flagByte b = 1 ↔ b = true := by cases b <;> decide

theorem flagByte_eq_zero_iff (b : Bool) : flagByte b = 0 ↔ b = false := by cases b <;> decide

/-! ## The sprite -/

/-- What the sprite covers is read off the two coordinate registers, `I` and memory, so a change of anything else moves no pixel of
it. -/
theorem underSprite_of_changesOnly {c : Changes} {s t : State} {x y : Reg} (h : ChangesOnly c s t) (hx : x ∉ c.regs)
    (hy : y ∉ c.regs) (hI : c.index = false) (hmem : c.bytes = []) (n : Nat) (px : Fin 64) (py : Fin 32) :
    UnderSprite t x y n px py ↔ UnderSprite s x y n px py := by
  have hread (a : Nat) : t.read a = s.read a := h.bytes a (by simp [hmem])
  simp only [UnderSprite, h.regs x hx, h.regs y hy, h.index hI, hread]

/-! ## The state after a draw -/

/-- The state that `DRW Vx, Vy, n` answers (`exec_drw`). -/
def State.afterDrw (s : State) (x y : Reg) (n : Nat) : State :=
  ((s.redraw (s.drawing x y n).1).setVF (flagByte (s.drawing x y n).2)).advance

section
variable (s : State) (x y : Reg) {n : Nat} {px : Fin 64} {py : Fin 32}

theorem exec_drw (n : Nat) : exec (.drw x y n) s = .next (s.afterDrw x y n) := rfl

theorem ChangesOnly.of_afterDrw (n : Nat) : ChangesOnly { regs := [15], screen := true } s (s.afterDrw x y n) :=
  .of_redraw_setVF s _ _

theorem State.afterDrw_reg_fifteen (n : Nat) : (s.afterDrw x y n).reg 15 = flagByte (s.drawing x y n).2 :=
  (s.redraw (s.drawing x y n).1).reg_setReg_self 15 _

theorem State.afterDrw_at_of_under (hn : n ≤ 32) (hu : UnderSprite s x y n px py) :
    Frame.at (s.afterDrw x y n).gfx px py = !Frame.at s.gfx px py :=
  ((drawRows_spec _ _ _ n hn _).1 px py).1 ((underRows_iff_underSprite s x y n px py).2 hu)

theorem State.afterDrw_at_of_not_under (hn : n ≤ 32) (hu : ¬UnderSprite s x y n px py) :
    Frame.at (s.afterDrw x y n).gfx px py = Frame.at s.gfx px py :=
  ((drawRows_spec _ _ _ n hn _).1 px py).2 fun h => hu ((underRows_iff_underSprite s x y n px py).1 h)

/-- A drawing starts with no collision, so its flag is that of the pixels under the sprite. -/
theorem State.drawing_collides_iff (hn : n ≤ 32) :
    (s.drawing x y n).2 = true ↔ ∃ px py, UnderSprite s x y n px py ∧ Frame.at s.gfx px py = true := by
  rw [State.drawing, (drawRows_spec _ _ _ n hn _).2]
  simp only [underRows_iff_underSprite, Bool.false_eq_true, false_or]

theorem State.afterDrw_reg_fifteen_eq_one_iff (hn : n ≤ 32) :
    (s.afterDrw x y n).reg 15 = 1 ↔ ∃ px py, UnderSprite s x y n px py ∧ Frame.at s.gfx px py = true := by
  rw [s.afterDrw_reg_fifteen, flagByte_eq_one_iff, s.drawing_collides_iff x y hn]

theorem State.afterDrw_reg_fifteen_eq_zero_iff (hn : n ≤ 32) :
    (s.afterDrw x y n).reg 15 = 0 ↔ ∀ px py, UnderSprite s x y n px py → Frame.at s.gfx px py = false := by
  rw [s.afterDrw_reg_fifteen, flagByte_eq_zero_iff, ← Bool.not_eq_true, s.drawing_collides_iff x y hn]
  simp only [not_exists, not_and, Bool.not_eq_true]

end

/-! ## The obligations -/

/-- Settles O29: what a drawing does to a pixel depends on whether the sprite covers it. -/
theorem drawTogglesThePixelsUnderTheSprite : Obligations.DrawTogglesThePixelsUnderTheSprite := by
  intro x y n s hn
  exact ⟨_, exec_drw s x y n, fun _ _ => s.afterDrw_at_of_under x y (by omega),
    fun _ _ => s.afterDrw_at_of_not_under x y (by omega), rfl, rfl, .of_afterDrw s x y n⟩

/-- Settles O30: `VF` is the flag of the drawing, and the drawing collides exactly at a set pixel under the sprite. -/
theorem drawFlagsACollision : Obligations.DrawFlagsACollision := by
  intro x y n s hn
  exact ⟨_, exec_drw s x y n, (s.afterDrw_reg_fifteen_eq_one_iff x y (by omega)).2,
    (s.afterDrw_reg_fifteen_eq_zero_iff x y (by omega)).2⟩

/-- Settles O31: the first draw moves neither the origin nor the sprite, so the second toggles the same pixels back and finds set
exactly those that were 0 before the first. -/
theorem drawingTwiceRestoresTheScreen : Obligations.DrawingTwiceRestoresTheScreen := by
  intro x y n s hn hx hy
  have hn32 : n ≤ 32 := by omega
  have hsame : ∀ px py, UnderSprite (s.afterDrw x y n) x y n px py ↔ UnderSprite s x y n px py :=
    underSprite_of_changesOnly (.of_afterDrw s x y n) (by simpa using hx) (by simpa using hy) rfl rfl n
  refine ⟨_, _, exec_drw s x y n, exec_drw (s.afterDrw x y n) x y n, Frame.ext_at fun px py => ?_, ?_⟩
  · by_cases hu : UnderSprite s x y n px py
    · rw [State.afterDrw_at_of_under _ x y hn32 ((hsame px py).2 hu), s.afterDrw_at_of_under x y hn32 hu, Bool.not_not]
    · rw [State.afterDrw_at_of_not_under _ x y hn32 (mt (hsame px py).1 hu), s.afterDrw_at_of_not_under x y hn32 hu]
  · have hset (px py) (hu : UnderSprite s x y n px py) :
        Frame.at (s.afterDrw x y n).gfx px py = true ↔ Frame.at s.gfx px py = false := by
      rw [s.afterDrw_at_of_under x y hn32 hu, Bool.not_eq_true']
    rw [State.afterDrw_reg_fifteen_eq_one_iff _ x y hn32]
    simp only [hsame]
    exact exists₂_congr fun px py => and_congr_right (hset px py)

/-- Settles O28: the screen is replaced by the blank one. -/
theorem clearBlanksTheScreen : Obligations.ClearBlanksTheScreen :=
  ⟨decodeWord_encode (i := .cls) rfl, fun s => ⟨_, rfl, fun _ => Frame.at_blank _ _, rfl, rfl, .of_redraw s _⟩⟩

end Sys2Proof.Machine

/-! # Proofs: keypad and timers (45_keypad_timers.md) -/

namespace Sys2Proof.Machine

/-! ## The key a register names, and the key found by the wait -/

theorem keyIndex_eq (v : Byte) : keyIndex v = v.toNat % 16 := byte_and_0F_toNat v

theorem State.firstKey_of_key_eq_zero {s : State} (h : s.key = 0) : s.firstKey = none :=
  s.firstKey_eq_none.2 fun k _ => by rw [State.pressed, h, BitVec.ofNat_eq_ofNat, BitVec.getLsbD_zero]

/-! ## The obligations -/

/-- Settles O32: both are skips on the flag of the key named, SKNP on its negation. -/
theorem keySkipsReadTheSnapshot : Obligations.KeySkipsReadTheSnapshot := by
  intro x s
  rw [← keyIndex_eq]
  refine ⟨?_, ?_⟩
  · exact .of_exec rfl Iff.rfl
  · exact .of_exec rfl (Bool.not_eq_true' _).to_iff

/-- Settles O33: the two branches of the wait, and the least pressed index is the key it finds. -/
theorem keyWaitStoresTheLeastKey : Obligations.KeyWaitStoresTheLeastKey := by
  refine ⟨fun x => decodeWord_encode (i := .ldVxK x) rfl, fun x s hnone => ?_, fun x s k hk hpressed hleast => ?_⟩
  · exact execLdVxK_none x (State.firstKey_of_key_eq_zero hnone)
  · exact .of_exec (execLdVxK_some x ((s.firstKey_eq_some k).2 ⟨hk, hpressed, hleast⟩))

/-- Settles O34: each of the three writes its destination and moves on. -/
theorem timerCopies : Obligations.TimerCopies := by
  refine ⟨fun x => decodeWord_encode (i := .ldVxDT x) rfl, fun x => decodeWord_encode (i := .ldDTVx x) rfl,
    fun x => decodeWord_encode (i := .ldSTVx x) rfl, fun x s => ⟨?_, ?_, ?_⟩⟩
  · exact .of_exec rfl
  · exact ⟨_, rfl, rfl, rfl, .of_setDelay s _⟩
  · exact ⟨_, rfl, rfl, rfl, .of_setSound s _⟩

end Sys2Proof.Machine

/-! # Proofs: loads and stores (46_memory_ops.md) -/

namespace Sys2Proof.Machine

/-! ## The decimal digits (R170) -/

/-- The digits of a byte as numbers: the hundreds, the tens, the ones. -/
theorem bcdDigits_map_toNat (v : Byte) :
    (bcdDigits v).map BitVec.toNat = [v.toNat / 100, v.toNat / 10 % 10, v.toNat % 10] := by
  simp [bcdDigits]

/-- The block of digits at `I` puts digit `k` at `ea(k)`. -/
theorem State.read_writeBlock_bcdDigits (s : State) (v : Byte) (k : Nat) (hk : k < 3) :
    ((s.writeBlock s.I.toNat (bcdDigits v)).read (s.ea k)).toNat =
      [v.toNat / 100, v.toNat / 10 % 10, v.toNat % 10][k] := by
  have hread := s.read_writeBlock_inside s.I.toNat k (bcdDigits v) (by simp [bcdDigits]) hk
  calc
    _ = (bcdDigits v)[k].toNat := congrArg BitVec.toNat hread
    _ = ((bcdDigits v).map BitVec.toNat)[k] := (List.getElem_map _).symm
    _ = _ := List.getElem_of_eq (bcdDigits_map_toNat v) hk

/-! ## The index register after a block (R171, R172, D13) -/

theorem State.indexAfter_toNat (s : State) (x : Reg) :
    (s.indexAfter x).toNat = if s.incrementI then (s.I.toNat + x.val + 1) % 65536 else s.I.toNat := by
  unfold State.indexAfter
  split
  · rw [BitVec.toNat_add, BitVec.toNat_ofNat]
    omega
  · rfl

/-! ## The obligations -/

/-- Settles O35: the digits at `ea(0)`, `ea(1)` and `ea(2)` make up the byte. -/
theorem decimalDigitsAreStored : Obligations.DecimalDigitsAreStored := by
  intro x s
  have hread := s.read_writeBlock_bcdDigits (s.reg x)
  have hhundreds : _ = (s.reg x).toNat / 100 := hread 0 (by decide)
  have htens : _ = (s.reg x).toNat / 10 % 10 := hread 1 (by decide)
  have hones : _ = (s.reg x).toNat % 10 := hread 2 (by decide)
  simp only [State.ea, wrapAddr, Nat.add_zero] at hhundreds htens hones
  refine ⟨_, rfl, ?_, ?_, ?_, rfl, .of_writeBlock s (bcdDigits (s.reg x))⟩
  all_goals simp only [State.advance_read, hhundreds, htens, hones]; omega

/-- Settles O36: the dump puts `V[r]` at `ea(r)`. -/
theorem registerDumpStoresUpToVx : Obligations.RegisterDumpStoresUpToVx := by
  intro x s
  exact ⟨_, rfl, fun r hr => s.read_dump hr, s.indexAfter_toNat x, rfl,
    { ChangesOnly.of_dump s x with index := nofun }⟩

/-- Settles O37: in the loaded register file `V[r]` is the byte at `ea(r)` up to `x`, and what it was beyond. -/
theorem registerLoadReadsUpToVx : Obligations.RegisterLoadReadsUpToVx := by
  intro x s
  refine ⟨_, rfl, fun r hr => ?_, s.indexAfter_toNat x, rfl, .of_setRegs_setI s (s.loadedRegs_unchanged x) nofun⟩
  exact (s.loadedRegs_get x r).trans (if_pos hr)

end Sys2Proof.Machine

/-! # Proofs: conditions, host events, reset and load (47_unknown.md, 60_exceptions.md, 70_reset_and_hazards.md) -/

namespace Sys2Proof.Machine

/-! ## Reports: conditions raised, and the mark of the first one (60_exceptions.md R200 to R205) -/

/-- In state `s` the instruction raises the condition (R203). -/
inductive Raises (s : State) : Instr → Condition → Prop
  | ret (h : s.sp = 0) : Raises s .ret (.stackUnderflow s.pc)
  | call (nnn : BitVec 12) (h : s.sp = 16) : Raises s (.call nnn) (.stackOverflow s.pc)

theorem Raises.atRunTime {s : State} {i : Instr} {c : Condition} (h : Raises s i c) : c.atRunTime = true := by
  cases h <;> rfl

/-- An instruction leaves the reports alone, or it raises one condition. -/
theorem exec_reports {i : Instr} {s t : State} (h : exec i s = .next t) :
    (t.cond = s.cond ∧ t.faultMark = s.faultMark) ∨
    ∃ c, Raises s i c ∧ t.cond = some c ∧ t.faultMark = s.faultMark.or (some c) := by
  by_cases huses : usesStack i = true
  · obtain rfl | ⟨nnn, rfl⟩ := eq_of_usesStack huses
    · obtain ⟨_, rfl⟩ | ⟨hempty, rfl⟩ := exec_ret_cases h
      · exact .inl ⟨rfl, rfl⟩
      · exact .inr ⟨_, .ret hempty, rfl, rfl⟩
    · obtain ⟨_, rfl⟩ | ⟨hfull, rfl⟩ := exec_call_cases h
      · exact .inl ⟨rfl, rfl⟩
      · exact .inr ⟨_, .call nnn hfull, rfl, rfl⟩
  · exact .inl ((exec_changesOnly h).reports (eq_false_of_ne_true huses))

/-- An event leaves the reports alone, or it is one that reports anew: a Step or a Reset. What it then returns is a run-time condition
or none, and it is marked unless an earlier one is. -/
theorem step_reports {s t : State} (h : step s = .next t) :
    (t.cond = s.cond ∧ t.faultMark = s.faultMark) ∨
    ((∀ c, t.cond = some c → c.atRunTime = true) ∧ t.faultMark = s.faultMark.or t.cond) := by
  rcases step_cases h with hreset | ⟨image, hload⟩ | ⟨k, hkey⟩ | htick | hack | ⟨i, hexec⟩ | hunknown
  · rw [hreset]; exact .inr ⟨nofun, Option.or_none.symm⟩
  · rw [hload]; exact .inl ⟨s.takeEvent.hostLoad_cond image, s.takeEvent.hostLoad_faultMark image⟩
  · rw [hkey]; exact .inl ⟨rfl, rfl⟩
  · rw [htick]; exact .inl ⟨rfl, rfl⟩
  · rw [hack]; exact .inl ⟨rfl, rfl⟩
  · obtain ⟨hcond, hmark⟩ | ⟨c, hraises, hcond, hmark⟩ := exec_reports hexec
    · rw [hcond, hmark]
      exact .inr ⟨nofun, Option.or_none.symm⟩
    · rw [hcond, hmark]
      exact .inr ⟨fun _ h => Option.some.inj h ▸ hraises.atRunTime, rfl⟩
  · rw [hunknown]; exact .inr ⟨fun _ h => Option.some.inj h ▸ rfl, rfl⟩

/-! ## Memory across an event: the canonical form (20_memory.md R51) -/

/-- An instruction leaves memory alone or writes one block to it. -/
theorem exec_memory {i : Instr} {s t : State} (h : exec i s = .next t) :
    t.memory = s.memory ∨ ∃ b vs, t.memory = s.memory.writeBlock b vs := by
  cases i with
  | storeBcd x => cases h; exact .inr ⟨s.I.toNat, bcdDigits (s.reg x), rfl⟩
  | dumpRegs x => cases h; exact .inr ⟨s.I.toNat, s.regsUpTo x, rfl⟩
  | ret => obtain ⟨_, rfl⟩ | ⟨_, rfl⟩ := exec_ret_cases h <;> exact .inl rfl
  | call nnn => obtain ⟨_, rfl⟩ | ⟨_, rfl⟩ := exec_call_cases h <;> exact .inl rfl
  | ldVxK x => obtain ⟨_, rfl⟩ | ⟨_, _, rfl⟩ := exec_ldVxK_cases h <;> exact .inl rfl
  | _ => cases h; exact .inl (by simp)

theorem exec_keeps_memory_wf {i : Instr} {s t : State} (hwf : Memory.wf s.memory) (h : exec i s = .next t) :
    Memory.wf t.memory := by
  obtain hmem | ⟨b, vs, hmem⟩ := exec_memory h
  · exact hmem ▸ hwf
  · exact hmem ▸ Memory.wf_writeBlock hwf b vs

/-! ## Load: an image that fits, and one that does not (70_reset_and_hazards.md R243) -/

section
variable (s : State) {image : List Byte}

theorem State.hostLoad_of_fits (h : image.length ≤ 3584) :
    s.hostLoad image = { s.writeBlock 0x200 image with loadResult := none } :=
  if_neg (by omega)

theorem State.hostLoad_of_too_large (h : 3584 < image.length) :
    s.hostLoad image = { s with loadResult := some (.programTooLarge image.length) } :=
  if_pos (by omega)

theorem State.hostLoad_keeps_memory_wf (hwf : Memory.wf s.memory) (image : List Byte) :
    Memory.wf (s.hostLoad image).memory := by
  by_cases hfits : image.length ≤ 3584
  · rw [s.hostLoad_of_fits hfits]
    exact Memory.wf_writeBlock hwf 0x200 image
  · rw [s.hostLoad_of_too_large (Nat.lt_of_not_le hfits)]
    exact hwf

theorem State.hostLoad_loadResult {c : Condition} (h : (s.hostLoad image).loadResult = some c) :
    ∃ len, c = .programTooLarge len ∧ 3584 < len := by
  by_cases hfits : image.length ≤ 3584
  · rw [s.hostLoad_of_fits hfits] at h
    cases h
  · have hlarge := Nat.lt_of_not_le hfits
    rw [s.hostLoad_of_too_large hlarge] at h
    cases h
    exact ⟨image.length, rfl, hlarge⟩

/-- An image that fits ends inside memory, so its addresses do not wrap. -/
theorem wrapAddr_image {k : Nat} (hfits : image.length ≤ 3584) (hk : k < image.length) : wrapAddr 0x200 k = 0x200 + k :=
  Nat.mod_eq_of_lt (by omega)

theorem ChangesOnly.of_image (hfits : image.length ≤ 3584) :
    ChangesOnly { bytes := (List.range image.length).map (fun i => 0x200 + i) } s (s.writeBlock 0x200 image) :=
  { ChangesOnly.refl s { bytes := (List.range image.length).map (fun i => 0x200 + i) } with
    bytes := fun a ha => s.read_writeBlock_outside 0x200 a image fun k hk he =>
      ha (List.mem_map.2 ⟨k, List.mem_range.2 hk, (wrapAddr_image hfits hk).symm.trans he.symm⟩) }

end

/-! ## The invariant -/

theorem step_keeps_memory_wf {s t : State} (hwf : Memory.wf s.memory) (h : step s = .next t) : Memory.wf t.memory := by
  rcases step_cases h with hreset | ⟨image, hload⟩ | ⟨k, hkey⟩ | htick | hack | ⟨i, hexec⟩ | hunknown
  · rw [hreset]; exact State.reset_memory_wf
  · rw [hload]; exact s.takeEvent.hostLoad_keeps_memory_wf hwf image
  · rw [hkey]; exact hwf
  · rw [htick]; exact hwf
  · rw [hack]; exact hwf
  · exact exec_keeps_memory_wf (s := s.takeEvent.beginStep) hwf hexec
  · rw [hunknown]; exact hwf

/-- A load report is the one that was there, or that of a Load of an image that is too large. -/
theorem step_loadResult {s t : State} {c : Condition} (h : step s = .next t) (hc : t.loadResult = some c) :
    s.loadResult = some c ∨ ∃ len, c = .programTooLarge len ∧ 3584 < len := by
  rcases step_cases h with hreset | ⟨image, hload⟩ | ⟨k, hkey⟩ | htick | hack | ⟨i, hexec⟩ | hunknown
  · rw [hreset] at hc; cases hc
  · rw [hload] at hc; exact .inr (s.takeEvent.hostLoad_loadResult hc)
  · rw [hkey] at hc; exact .inl hc
  · rw [htick] at hc; exact .inl hc
  · rw [hack] at hc; exact .inl hc
  · exact .inl ((exec_changesOnly hexec).loadResult.symm.trans hc)
  · rw [hunknown] at hc; exact .inl hc

/-- Settles O46: memory stays canonical, a load report is an old one or names an oversized image, and what an event reports anew is a
run-time condition that gets marked. -/
theorem everyEventKeepsTheInvariant : Obligations.EveryEventKeepsTheInvariant := by
  intro s t hs h
  have hmemory := step_keeps_memory_wf hs.memory h
  have hload c (hc : t.loadResult = some c) := (step_loadResult h hc).elim (hs.loadResult c) id
  obtain ⟨hcond, hmark⟩ | ⟨hatRunTime, hmark⟩ := step_reports h
  · exact ⟨hmemory, hcond ▸ hs.cond, hmark ▸ hs.mark, hcond ▸ hmark ▸ hs.marked, hload⟩
  · refine ⟨hmemory, hatRunTime, fun c hc => ?_, fun hne hnone => ?_, hload⟩
    · rw [hmark, Option.or_eq_some_iff] at hc
      obtain hold | ⟨_, hnew⟩ := hc
      · exact hs.mark c hold
      · exact hatRunTime c hnew
    · rw [hmark, Option.or_eq_none_iff] at hnone
      exact hne hnone.2

/-- Settles O45: memory lists nothing, and the reports are none. -/
theorem resetMeetsTheInvariant : Obligations.ResetMeetsTheInvariant :=
  ⟨State.reset_memory_wf, nofun, nofun, fun hne => absurd rfl hne, nofun⟩

/-! ## Conditions -/

/-- Settles O8: by the equations of the three instructions that branch, and of the engine. -/
theorem nothingStopsTheMachine : Obligations.NothingStopsTheMachine :=
  ⟨exec_answers_next, step_answers_next⟩

/-- Settles O52: an instruction raises one of the two conditions of `Raises` or leaves the report. -/
theorem conditionsComeFromCallAndReturn : Obligations.ConditionsComeFromCallAndReturn := by
  intro i s t h
  obtain ⟨hcond, _⟩ | ⟨c, hraises, hcond, _⟩ := exec_reports h
  · exact .inl hcond
  · cases hraises with
    | ret hempty => exact .inr (.inl ⟨rfl, hempty, hcond⟩)
    | call nnn hfull => exact .inr (.inr ⟨nnn, rfl, hfull, hcond⟩)

/-- Settles O54: a mark is kept, or a new condition is put behind it. -/
theorem firstConditionStaysMarked : Obligations.FirstConditionStaysMarked := by
  intro s t c h hc
  obtain ⟨_, hmark⟩ | ⟨_, hmark⟩ := step_reports h
  · exact hmark.trans hc
  · rw [hmark, hc, Option.some_or]

theorem ChangesOnly.of_unknownOpcode (s : State) (op : Word) :
    ChangesOnly { reports := true } s (s.beginStep.unknownOpcode op) :=
  { ChangesOnly.refl s { reports := true } with reports := nofun }

/-- Settles O7: the engine's fallback. -/
theorem unknownWordIsReportedAndSkipped : Obligations.UnknownWordIsReportedAndSkipped := by
  intro s rest e hnext hword
  rw [step_of_stepIsNext hnext]
  exact ⟨_, engineStep_error hword, rfl, rfl, .of_unknownOpcode _ _⟩

/-! ## The timers (60_exceptions.md R210, R211) -/

theorem countDown_toNat (v : Byte) : (countDown v).toNat = v.toNat - 1 := by
  unfold countDown
  split
  · next hzero => rw [hzero]; rfl
  · next hne =>
    have hpos : v.toNat ≠ 0 := fun h => hne (BitVec.eq_of_toNat_eq h)
    rw [byte_sub_toNat, show (1 : Byte).toNat = 1 from rfl]
    omega

/-- Settles O40: by induction on the Ticks. -/
theorem timersReachZeroAfterTheirValue : Obligations.TimersReachZeroAfterTheirValue := by
  intro k s
  induction k with
  | zero => exact ⟨rfl, rfl⟩
  | succ k ih =>
    obtain ⟨hdelay, hsound⟩ := ih
    rw [ticks, State.hostTick_delayTimer, State.hostTick_soundTimer, countDown_toNat, countDown_toNat, hdelay, hsound]
    exact ⟨rfl, rfl⟩

theorem ChangesOnly.of_hostTick (s : State) : ChangesOnly { delay := true, sound := true } s s.hostTick :=
  { ChangesOnly.refl s { delay := true, sound := true } with delay := nofun, sound := nofun }

/-- Settles O39: each timer is counted down once. -/
theorem tickCountsBothTimersDown : Obligations.TickCountsBothTimersDown := by
  intro s rest h
  exact ⟨_, step_event h, countDown_toNat _, countDown_toNat _, rfl, .of_hostTick _⟩

/-! ## KeyWrite and DrawAck (60_exceptions.md R214, R217) -/

/-- Settles O41: the snapshot is replaced whole. -/
theorem keyWriteReplacesTheSnapshot : Obligations.KeyWriteReplacesTheSnapshot := by
  intro s k rest h
  exact ⟨_, step_event h, fun _ _ => rfl, rfl, .refl _ _⟩

theorem ChangesOnly.of_hostDrawAck (s : State) : ChangesOnly { screen := true } s s.hostDrawAck :=
  { ChangesOnly.refl s { screen := true } with screen := nofun }

/-- Settles O42: `draw_flag` alone is written. -/
theorem drawAckClearsTheDrawFlag : Obligations.DrawAckClearsTheDrawFlag := by
  intro s rest h
  exact ⟨_, step_event h, rfl, rfl, rfl, .of_hostDrawAck _⟩

/-! ## Reset and Load (70_reset_and_hazards.md R240, R243) -/

theorem fontTable_length : fontTable.length = 80 := rfl

theorem resetByte_font (i : Nat) (h : i < fontTable.length) : resetByte (0x050 + i) = fontTable[i] := by
  rw [resetByte, if_pos (Nat.le_add_right _ _), Nat.add_sub_cancel_left]
  exact List.getD_eq_getElem _ _ h

/-- Outside the font Reset leaves 0 (20_memory.md R57): below it, and beyond the end of the table. -/
theorem resetByte_outside_font {a : Nat} (h : a < 0x050 ∨ 0x0A0 ≤ a) : resetByte a = 0 := by
  obtain hbelow | hbeyond := h
  · exact if_neg (by omega)
  · rw [resetByte, if_pos (by omega)]
    exact List.getD_eq_default _ _ (by rw [fontTable_length]; omega)

/-- Settles O43: memory lists nothing after Reset and so reads as `resetByte`; every other element is written out in
`State.reset`. -/
theorem resetSetsEveryElement : Obligations.ResetSetsEveryElement := by
  intro s rest h
  exact ⟨_, step_event h, resetByte_font, fontTable_length, fun _ => resetByte_outside_font,
    fun r => Vector.getElem_replicate r.isLt, rfl, rfl, fun j => Vector.getElem_replicate j.isLt,
    rfl, rfl, rfl, fun _ => Frame.at_blank _ _, fun _ => BitVec.getLsbD_zero, rfl, rfl⟩

/-- Settles O44: the two branches of Load; byte `i` of an image that fits goes to `0x200 + i`. -/
theorem loadCopiesAnImageThatFits : Obligations.LoadCopiesAnImageThatFits := by
  intro s image rest h
  have hstep : step s = .next (State.hostLoad { s with schedule := rest } image) := step_event h
  refine ⟨fun hfits => ?_, fun hlarge => ?_⟩
  · rw [State.hostLoad_of_fits _ hfits] at hstep
    refine ⟨_, hstep, fun i hi => ?_, rfl, .of_image { s with schedule := rest, loadResult := none } hfits⟩
    rw [← wrapAddr_image hfits hi]
    exact s.read_writeBlock_inside 0x200 i image (by omega) hi
  · rw [hstep, State.hostLoad_of_too_large _ hlarge]

end Sys2Proof.Machine
